-- ==== Sys2Proof/Word.lean ====
section
/-! DEFINITION. The words of the OSOROM CPU: 32-bit registers and addresses (10_state.md R10, R13; 20_memory.md R40,
R41) and 8-bit memory bytes. -/

namespace Sys2Proof

/-- A register value, an instruction word or an address: 32 bits. -/
abbrev Word := BitVec 32

/-- One byte of memory. -/
abbrev Byte := BitVec 8

end Sys2Proof
end

