-- ==== Sys2Proof/Config.lean ====
section
/-! DEFINITION. What the spec leaves open: the free values (constants without a body, so that no proof can know them)
and the types they range over. The parameters of 00_scope.md R5 that are data are in Machine/Params.lean. -/

namespace Sys2Proof

/-- One cached translation (20_memory.md R58): virtual page, physical page base, and the combined W, U, G flags. -/
structure TlbEntry where
  vpage : BitVec 20
  base  : BitVec 20
  w     : Bool
  u     : Bool
  g     : Bool
deriving DecidableEq, Repr

/-- The two TLBs (10_state.md R29). -/
inductive TlbId where
  | data
  | inst
deriving DecidableEq, Repr

/-- Who makes a memory access in a step: the packet fetch, or the instruction in a slot. Free values of different
accesses of one step are independent. -/
inductive Port where
  | fetch
  | lane (k : Fin 4)
deriving DecidableEq, Repr

/-- The two readings of CMPBC (90_conflicts.md C3, 42_compare.md R156). -/
inductive CmpbcReading where
  | anyClear
  | allClear
deriving DecidableEq, Repr

/-- SDIV and SREM (00_scope.md R5, D16): truncation toward zero, or any other pair of functions. -/
inductive SignedDivision where
  | truncating
  | other
deriving DecidableEq, Repr

/-- MEM_LANE_ORDER (00_scope.md R5, D32): which of two memory slots of one packet performs its access first. -/
inductive LaneOrder where
  | slot0First
  | slot1First
deriving DecidableEq, Repr

/-- PERIPH_VALID(pa) of 00_scope.md R5: which physical addresses at or above 0x80000000 answer. OPEN: free. -/
opaque Config.periphValid : Word → Bool

/-- LINE_BYTES of 00_scope.md R5 is "a power of two, at least 4": how many doublings of 4 it is. OPEN: free. -/
opaque Config.lineExtra : Nat

/-- LINE_BYTES: bytes of one L1 cache line, a free power of two that is at least 4 (00_scope.md R5, D41). -/
def Config.lineBytes : Nat := 4 * 2 ^ Config.lineExtra

/-- The value a load from the peripheral region draws at step `tick` (20_memory.md R49, U29). -/
opaque Config.periphLoad : (tick : Nat) → Port → Word

/-- The word a packet fetch from the peripheral region draws for one slot (20_memory.md R49). -/
opaque Config.periphFetch : (tick : Nat) → (slot : Nat) → Word

/-- The entry a table walk that reads the peripheral region draws at one level (20_memory.md R49, R53). -/
opaque Config.periphEntry : (tick : Nat) → Port → (level : Nat) → Word

/-- SDIV where it is not truncation toward zero (00_scope.md R5, 45_muldiv.md R191). OPEN: free. -/
opaque Config.otherSdiv : (n d : Int) → Int

/-- SREM where SDIV is not truncation toward zero (00_scope.md R5, 45_muldiv.md R191). OPEN: free. -/
opaque Config.otherSrem : (n d : Int) → Int

/-- DIV_OVERFLOW_RESULT: the quotient drawn when it does not fit in 32 bits (45_muldiv.md R191, D17, U20), a function of
the step and of the division, so that an implementation may fix it. -/
opaque Config.divOverflowQuotient : (tick : Nat) → (sg : Bool) → (n d : Int) → Word

/-- DIV_OVERFLOW_RESULT: the remainder drawn when the quotient does not fit in 32 bits (45_muldiv.md R191, U20). -/
opaque Config.divOverflowRemainder : (tick : Nat) → (sg : Bool) → (n d : Int) → Word

/-- The level of the `irq` input at the step after step `tick` (10_state.md R31, 60_exceptions.md R232). -/
opaque Config.irqLevel : (tick : Nat) → Bool

/-- Whether a TLB still holds an entry after step `tick`: it "may lose any entry at any time" (20_memory.md R58). -/
opaque Config.tlbKeeps : (tick : Nat) → TlbId → TlbEntry → Bool

/-- Which of a TLB's entries for the page an access uses; a number that names none means a new walk
(20_memory.md R58, R59, U43). -/
opaque Config.tlbPick : (tick : Nat) → Port → Nat

/-- Whether a walk that found P = 1 at both levels leaves an entry in the TLB (20_memory.md R58). -/
opaque Config.tlbFills : (tick : Nat) → Port → Bool

/-- Which admitted value of an entry a walk reads: the stored one or an older one still in L2
(20_memory.md R53, U45). -/
opaque Config.walkPick : (tick : Nat) → Port → (level : Nat) → Nat

/-- Which admitted value of a slot's word a packet fetch reads (20_memory.md R68, U44). -/
opaque Config.fetchPick : (tick : Nat) → (slot : Nat) → Nat

/-- The link bit after a packet that both sets it (LL) and clears it (ERET): no rule orders the two (log 21). -/
opaque Config.linkDraw : (tick : Nat) → Bool

end Sys2Proof
end

