-- ==== Sys2Proof/Machine/Params.lean ====
section
/-! DEFINITION. The parameters of 00_scope.md R5 that are data, as the arguments that R5 asks for: a machine carries one
value of `Params` in its state, fixed for the run. PERIPH_VALID, LINE_BYTES and DIV_OVERFLOW_RESULT have no default and
are free values of Config. -/

namespace Sys2Proof.Machine

/-- The parameters of an implementation (00_scope.md R5). -/
structure Params where
  /-- RESET_PC, bits 31:4: it is 16-byte aligned (10_state.md R32). -/
  resetPacket : BitVec 28
  /-- EPC_M_BIT (10_state.md R23): one of the four bits below EPC's PC field. -/
  epcMBit : Fin 4
  /-- EPC_IF_BIT (10_state.md R23). -/
  epcIfBit : Fin 4
  /-- M and IF are two fields (10_state.md R23). -/
  epcBitsDiffer : epcMBit ≠ epcIfBit
  /-- SDIV and SREM (45_muldiv.md R191). -/
  signedDivision : SignedDivision
  /-- DUPDEST_DYNAMIC (40_packet_execution.md R115). -/
  dupDestDynamic : Bool
  /-- MEM_LANE_ORDER (20_memory.md R71). -/
  memLaneOrder : Option LaneOrder
  /-- CMPBC_READING (42_compare.md R156). -/
  cmpbcReading : CmpbcReading
deriving DecidableEq, Repr

/-- RESET_PC (00_scope.md R5). -/
def Params.resetPc (ps : Params) : Word := ps.resetPacket ++ 0#4

/-- SDIV (45_muldiv.md R191): by default the quotient truncated toward zero (D16). -/
def sdiv (sd : SignedDivision) (n d : Int) : Int :=
  match sd with
  | .truncating => n.tdiv d
  | .other => Config.otherSdiv n d

/-- SREM (45_muldiv.md R191): by default the remainder with the dividend's sign (D16). -/
def srem (sd : SignedDivision) (n d : Int) : Int :=
  match sd with
  | .truncating => n.tmod d
  | .other => Config.otherSrem n d

/-- The defaults of R5 (log 14 to log 18), and 0 for RESET_PC, for which R5 gives none (DESIGN CHOICE, log 2). -/
def Params.default : Params where
  resetPacket := 0#28
  epcMBit := 1
  epcIfBit := 0
  epcBitsDiffer := by decide
  signedDivision := .truncating
  dupDestDynamic := true
  memLaneOrder := none
  cmpbcReading := .anyClear

end Sys2Proof.Machine
end

