-- ==== Sys2Proof/Syntax.lean ====
section
/-! DEFINITION. The instructions of the OSOROM CPU (30_encoding.md R95): one constructor for each of the 81 rows of
spec/opcode_table.json. Every instruction carries its Pred field (R81); bits drawn X are not kept (R104, log 32). -/

namespace Sys2Proof

/-- A general register number, R0 to R31 (10_state.md R10). -/
abbrev Reg := Fin 32

/-- A predicate register number, P0 to P3 (10_state.md R15). -/
abbrev PredReg := Fin 4

/-- A coprocessor register number, a 5-bit field (10_state.md R19). -/
abbrev CprNum := Fin 32

/-- The Pred field (30_encoding.md R81): a predicate register and an optional inversion. -/
structure Pred where
  reg : PredReg
  inv : Bool
deriving DecidableEq, Repr

/-- SHF, the shift type (30_encoding.md R101). -/
inductive Shf where
  | lsl
  | lsr
  | asr
  | ror
deriving DecidableEq, Repr

/-- TYPE of FLUSH (30_encoding.md R102). -/
inductive FlushType where
  | data
  | inst
  | dtlb
  | itlb
deriving DecidableEq, Repr

/-- The instructions, one constructor per encoded form. -/
inductive Instr where
  /-- ADD: Rd <- Rs + Imm, short immediate (R130). -/
  | addShort (p : Pred) (c : BitVec 10) (rot : BitVec 4) (rd rs : Reg)
  /-- ADD: Rd <- Rs + (Rt SHF Imm) (R130). -/
  | addReg (p : Pred) (amt : BitVec 5) (shf : Shf) (rt rd rs : Reg)
  /-- ADD: Rd <- Rs + Imm, long immediate (R130). -/
  | addLong (p : Pred) (rd rs : Reg) (imm : Word)
  /-- AND: Rd <- Rs & Imm, short immediate (R131). -/
  | andShort (p : Pred) (c : BitVec 10) (rot : BitVec 4) (rd rs : Reg)
  /-- AND: Rd <- Rs & (Rt SHF Imm) (R131). -/
  | andReg (p : Pred) (amt : BitVec 5) (shf : Shf) (rt rd rs : Reg)
  /-- AND: Rd <- Rs & Imm, long immediate (R131). -/
  | andLong (p : Pred) (rd rs : Reg) (imm : Word)
  /-- NOR: Rd <- Rs NOR Imm, short immediate (R132). -/
  | norShort (p : Pred) (c : BitVec 10) (rot : BitVec 4) (rd rs : Reg)
  /-- NOR: Rd <- Rs NOR (Rt SHF Imm) (R132). -/
  | norReg (p : Pred) (amt : BitVec 5) (shf : Shf) (rt rd rs : Reg)
  /-- NOR: Rd <- Rs NOR Imm, long immediate (R132). -/
  | norLong (p : Pred) (rd rs : Reg) (imm : Word)
  /-- OR: Rd <- Rs | Imm, short immediate (R133). -/
  | orShort (p : Pred) (c : BitVec 10) (rot : BitVec 4) (rd rs : Reg)
  /-- OR: Rd <- Rs | (Rt SHF Imm) (R133). -/
  | orReg (p : Pred) (amt : BitVec 5) (shf : Shf) (rt rd rs : Reg)
  /-- OR: Rd <- Rs | Imm, long immediate (R133). -/
  | orLong (p : Pred) (rd rs : Reg) (imm : Word)
  /-- SUB: Rd <- Rs - Imm, short immediate (R134). -/
  | subShort (p : Pred) (c : BitVec 10) (rot : BitVec 4) (rd rs : Reg)
  /-- SUB: Rd <- Rs - (Rt SHF Imm) (R134). -/
  | subReg (p : Pred) (amt : BitVec 5) (shf : Shf) (rt rd rs : Reg)
  /-- SUB: Rd <- Rs - Imm, long immediate (R134). -/
  | subLong (p : Pred) (rd rs : Reg) (imm : Word)
  /-- RSB: Rd <- Rs RSB Imm, short immediate (R135). -/
  | rsbShort (p : Pred) (c : BitVec 10) (rot : BitVec 4) (rd rs : Reg)
  /-- RSB: Rd <- Rs RSB (Rt SHF Imm) (R135). -/
  | rsbReg (p : Pred) (amt : BitVec 5) (shf : Shf) (rt rd rs : Reg)
  /-- RSB: Rd <- Rs RSB Imm, long immediate (R135). -/
  | rsbLong (p : Pred) (rd rs : Reg) (imm : Word)
  /-- XOR: Rd <- Rs ^ Imm, short immediate (R136). -/
  | xorShort (p : Pred) (c : BitVec 10) (rot : BitVec 4) (rd rs : Reg)
  /-- XOR: Rd <- Rs ^ (Rt SHF Imm) (R136). -/
  | xorReg (p : Pred) (amt : BitVec 5) (shf : Shf) (rt rd rs : Reg)
  /-- XOR: Rd <- Rs ^ Imm, long immediate (R136). -/
  | xorLong (p : Pred) (rd rs : Reg) (imm : Word)
  /-- MOV: Rd <- Imm, short immediate (R137). -/
  | movShort (p : Pred) (lo : BitVec 10) (rot : BitVec 4) (rd : Reg) (hi : BitVec 5)
  /-- MOV: Rd <- (Rt SHF Imm) (R137). -/
  | movReg (p : Pred) (amt : BitVec 5) (shf : Shf) (rt rd : Reg)
  /-- MOV: Rd <- (Rt SHF Rs) (R137). -/
  | movRegsh (p : Pred) (shf : Shf) (rt rd rs : Reg)
  /-- MOV: Rd <- Imm, long immediate (R137). -/
  | movLong (p : Pred) (rd : Reg) (imm : Word)
  /-- MVN: Rd <- ~Imm, short immediate (R138). -/
  | mvnShort (p : Pred) (lo : BitVec 10) (rot : BitVec 4) (rd : Reg) (hi : BitVec 5)
  /-- MVN: Rd <- ~(Rt SHF Imm) (R138). -/
  | mvnReg (p : Pred) (amt : BitVec 5) (shf : Shf) (rt rd : Reg)
  /-- MVN: Rd <- ~(Rt SHF Rs) (R138). -/
  | mvnRegsh (p : Pred) (shf : Shf) (rt rd rs : Reg)
  /-- MVN: Rd <- ~Imm, long immediate (R138). -/
  | mvnLong (p : Pred) (rd : Reg) (imm : Word)
  /-- SXB: Rd <- SXB Imm, short immediate (R139). -/
  | sxbShort (p : Pred) (lo : BitVec 10) (rot : BitVec 4) (rd : Reg) (hi : BitVec 5)
  /-- SXB: Rd <- SXB (Rt SHF Imm) (R139). -/
  | sxbReg (p : Pred) (amt : BitVec 5) (shf : Shf) (rt rd : Reg)
  /-- SXB: Rd <- SXB (Rt SHF Rs) (R139). -/
  | sxbRegsh (p : Pred) (shf : Shf) (rt rd rs : Reg)
  /-- SXB: Rd <- SXB Imm, long immediate (R139). -/
  | sxbLong (p : Pred) (rd : Reg) (imm : Word)
  /-- SXH: Rd <- SXH Imm, short immediate (R140). -/
  | sxhShort (p : Pred) (lo : BitVec 10) (rot : BitVec 4) (rd : Reg) (hi : BitVec 5)
  /-- SXH: Rd <- SXH (Rt SHF Imm) (R140). -/
  | sxhReg (p : Pred) (amt : BitVec 5) (shf : Shf) (rt rd : Reg)
  /-- SXH: Rd <- SXH (Rt SHF Rs) (R140). -/
  | sxhRegsh (p : Pred) (shf : Shf) (rt rd rs : Reg)
  /-- SXH: Rd <- SXH Imm, long immediate (R140). -/
  | sxhLong (p : Pred) (rd : Reg) (imm : Word)
  /-- CMPLTU: Pd <- Rs LTU Imm, short immediate (R150). -/
  | cmpltuShort (p : Pred) (c : BitVec 10) (rot : BitVec 4) (pd : PredReg) (rs : Reg)
  /-- CMPLTU: Pd <- Rs LTU (Rt SHF Imm) (R150). -/
  | cmpltuReg (p : Pred) (amt : BitVec 5) (shf : Shf) (rt : Reg) (pd : PredReg) (rs : Reg)
  /-- CMPLTU: Pd <- Rs LTU Imm, long immediate (R150). -/
  | cmpltuLong (p : Pred) (pd : PredReg) (rs : Reg) (imm : Word)
  /-- CMPLEU: Pd <- Rs LEU Imm, short immediate (R151). -/
  | cmpleuShort (p : Pred) (c : BitVec 10) (rot : BitVec 4) (pd : PredReg) (rs : Reg)
  /-- CMPLEU: Pd <- Rs LEU (Rt SHF Imm) (R151). -/
  | cmpleuReg (p : Pred) (amt : BitVec 5) (shf : Shf) (rt : Reg) (pd : PredReg) (rs : Reg)
  /-- CMPLEU: Pd <- Rs LEU Imm, long immediate (R151). -/
  | cmpleuLong (p : Pred) (pd : PredReg) (rs : Reg) (imm : Word)
  /-- CMPEQ: Pd <- Rs == Imm, short immediate (R152). -/
  | cmpeqShort (p : Pred) (c : BitVec 10) (rot : BitVec 4) (pd : PredReg) (rs : Reg)
  /-- CMPEQ: Pd <- Rs == (Rt SHF Imm) (R152). -/
  | cmpeqReg (p : Pred) (amt : BitVec 5) (shf : Shf) (rt : Reg) (pd : PredReg) (rs : Reg)
  /-- CMPEQ: Pd <- Rs == Imm, long immediate (R152). -/
  | cmpeqLong (p : Pred) (pd : PredReg) (rs : Reg) (imm : Word)
  /-- CMPLTS: Pd <- Rs LTS Imm, short immediate (R153). -/
  | cmpltsShort (p : Pred) (c : BitVec 10) (rot : BitVec 4) (pd : PredReg) (rs : Reg)
  /-- CMPLTS: Pd <- Rs LTS (Rt SHF Imm) (R153). -/
  | cmpltsReg (p : Pred) (amt : BitVec 5) (shf : Shf) (rt : Reg) (pd : PredReg) (rs : Reg)
  /-- CMPLTS: Pd <- Rs LTS Imm, long immediate (R153). -/
  | cmpltsLong (p : Pred) (pd : PredReg) (rs : Reg) (imm : Word)
  /-- CMPLES: Pd <- Rs LES Imm, short immediate (R154). -/
  | cmplesShort (p : Pred) (c : BitVec 10) (rot : BitVec 4) (pd : PredReg) (rs : Reg)
  /-- CMPLES: Pd <- Rs LES (Rt SHF Imm) (R154). -/
  | cmplesReg (p : Pred) (amt : BitVec 5) (shf : Shf) (rt : Reg) (pd : PredReg) (rs : Reg)
  /-- CMPLES: Pd <- Rs LES Imm, long immediate (R154). -/
  | cmplesLong (p : Pred) (pd : PredReg) (rs : Reg) (imm : Word)
  /-- CMPBS: Pd <- Rs BS Imm, short immediate (R155). -/
  | cmpbsShort (p : Pred) (c : BitVec 10) (rot : BitVec 4) (pd : PredReg) (rs : Reg)
  /-- CMPBS: Pd <- Rs BS (Rt SHF Imm) (R155). -/
  | cmpbsReg (p : Pred) (amt : BitVec 5) (shf : Shf) (rt : Reg) (pd : PredReg) (rs : Reg)
  /-- CMPBS: Pd <- Rs BS Imm, long immediate (R155). -/
  | cmpbsLong (p : Pred) (pd : PredReg) (rs : Reg) (imm : Word)
  /-- CMPBC: Pd <- Rs BC Imm, short immediate (R156). -/
  | cmpbcShort (p : Pred) (c : BitVec 10) (rot : BitVec 4) (pd : PredReg) (rs : Reg)
  /-- CMPBC: Pd <- Rs BC (Rt SHF Imm) (R156). -/
  | cmpbcReg (p : Pred) (amt : BitVec 5) (shf : Shf) (rt : Reg) (pd : PredReg) (rs : Reg)
  /-- CMPBC: Pd <- Rs BC Imm, long immediate (R156). -/
  | cmpbcLong (p : Pred) (pd : PredReg) (rs : Reg) (imm : Word)
  /-- LB: Rd <- *b(Rs + OFFSET) (R170). -/
  | lb (p : Pred) (off : BitVec 12) (rd rs : Reg)
  /-- LH: Rd <- *h(Rs + OFFSET) (R171). -/
  | lh (p : Pred) (off : BitVec 12) (rd rs : Reg)
  /-- LW: Rd <- *w(Rs + OFFSET) (R172). -/
  | lw (p : Pred) (off : BitVec 12) (rd rs : Reg)
  /-- LL: Rd <- *ll(Rs + OFFSET) (R173). -/
  | ll (p : Pred) (off : BitVec 12) (rd rs : Reg)
  /-- SB: *b(Rs + OFFSET) <- Rt (R174). -/
  | sb (p : Pred) (off : BitVec 11) (m : Bool) (rt rs : Reg)
  /-- SH: *h(Rs + OFFSET) <- Rt (R175). -/
  | sh (p : Pred) (off : BitVec 11) (m : Bool) (rt rs : Reg)
  /-- SW: *w(Rs + OFFSET) <- Rt (R176). -/
  | sw (p : Pred) (off : BitVec 11) (m : Bool) (rt rs : Reg)
  /-- SC: *sc(Rs + OFFSET) <- Rt (R177). -/
  | sc (p : Pred) (off : BitVec 11) (m : Bool) (rt rs : Reg)
  /-- B: B label (R160). -/
  | bImm (p : Pred) (off : BitVec 25)
  /-- B: B Rs + OFF (R160). -/
  | bReg (p : Pred) (off : BitVec 20) (rs : Reg)
  /-- BL: BL label (R161). -/
  | blImm (p : Pred) (off : BitVec 25)
  /-- BL: BL Rs + OFF (R161). -/
  | blReg (p : Pred) (off : BitVec 20) (rs : Reg)
  /-- BREAK: BREAK (R200). -/
  | brk (p : Pred)
  /-- SYSCALL: SYSCALL (R201). -/
  | syscall (p : Pred)
  /-- FENCE: FENCE (R202). -/
  | fence (p : Pred)
  /-- ERET: ERET (R203). -/
  | eret (p : Pred)
  /-- FLUSH: FLUSH.ty Rs (R204). -/
  | flush (p : Pred) (c : Bool) (ty : FlushType) (rs : Reg)
  /-- MFC: Rd <- CPRs (R205). -/
  | mfc (p : Pred) (rd : Reg) (cprs : CprNum)
  /-- MTC: CPRd <- Rs (R206). -/
  | mtc (p : Pred) (cprd : CprNum) (rs : Reg)
  /-- MULT: Rd <- Rs * Rt (R190). -/
  | mult (p : Pred) (sg : Bool) (rt rd rs : Reg)
  /-- DIV: Rd <- Rs / Rt (R191). -/
  | div (p : Pred) (sg : Bool) (rt : Reg) (wide : Bool) (rd rs : Reg)
  /-- MFHI: Rd <- OVF (R192). -/
  | mfhi (p : Pred) (rd : Reg)
  /-- MTHI: OVF <- Rs (R193). -/
  | mthi (p : Pred) (rs : Reg)
deriving DecidableEq, Repr

/-- The three instruction types (30_encoding.md R95). -/
inductive InstrType where
  | alu
  | memory
  | control
deriving DecidableEq, Repr

/-- The thirteen formats (30_encoding.md R82 to R94). -/
inductive Format where
  | alu2Short
  | cmpShort
  | alu1Short
  | alu2Reg
  | cmpReg
  | alu1Reg
  | load
  | store
  | brImm
  | brReg
  | ctrl
  | alu1Regsh
  | aluLong
deriving DecidableEq, Repr

/-- The Pred field of an instruction (30_encoding.md R81). -/
def Instr.pred : Instr → Pred
  | .addShort p _ _ _ _ => p
  | .addReg p _ _ _ _ _ => p
  | .addLong p _ _ _ => p
  | .andShort p _ _ _ _ => p
  | .andReg p _ _ _ _ _ => p
  | .andLong p _ _ _ => p
  | .norShort p _ _ _ _ => p
  | .norReg p _ _ _ _ _ => p
  | .norLong p _ _ _ => p
  | .orShort p _ _ _ _ => p
  | .orReg p _ _ _ _ _ => p
  | .orLong p _ _ _ => p
  | .subShort p _ _ _ _ => p
  | .subReg p _ _ _ _ _ => p
  | .subLong p _ _ _ => p
  | .rsbShort p _ _ _ _ => p
  | .rsbReg p _ _ _ _ _ => p
  | .rsbLong p _ _ _ => p
  | .xorShort p _ _ _ _ => p
  | .xorReg p _ _ _ _ _ => p
  | .xorLong p _ _ _ => p
  | .movShort p _ _ _ _ => p
  | .movReg p _ _ _ _ => p
  | .movRegsh p _ _ _ _ => p
  | .movLong p _ _ => p
  | .mvnShort p _ _ _ _ => p
  | .mvnReg p _ _ _ _ => p
  | .mvnRegsh p _ _ _ _ => p
  | .mvnLong p _ _ => p
  | .sxbShort p _ _ _ _ => p
  | .sxbReg p _ _ _ _ => p
  | .sxbRegsh p _ _ _ _ => p
  | .sxbLong p _ _ => p
  | .sxhShort p _ _ _ _ => p
  | .sxhReg p _ _ _ _ => p
  | .sxhRegsh p _ _ _ _ => p
  | .sxhLong p _ _ => p
  | .cmpltuShort p _ _ _ _ => p
  | .cmpltuReg p _ _ _ _ _ => p
  | .cmpltuLong p _ _ _ => p
  | .cmpleuShort p _ _ _ _ => p
  | .cmpleuReg p _ _ _ _ _ => p
  | .cmpleuLong p _ _ _ => p
  | .cmpeqShort p _ _ _ _ => p
  | .cmpeqReg p _ _ _ _ _ => p
  | .cmpeqLong p _ _ _ => p
  | .cmpltsShort p _ _ _ _ => p
  | .cmpltsReg p _ _ _ _ _ => p
  | .cmpltsLong p _ _ _ => p
  | .cmplesShort p _ _ _ _ => p
  | .cmplesReg p _ _ _ _ _ => p
  | .cmplesLong p _ _ _ => p
  | .cmpbsShort p _ _ _ _ => p
  | .cmpbsReg p _ _ _ _ _ => p
  | .cmpbsLong p _ _ _ => p
  | .cmpbcShort p _ _ _ _ => p
  | .cmpbcReg p _ _ _ _ _ => p
  | .cmpbcLong p _ _ _ => p
  | .lb p _ _ _ => p
  | .lh p _ _ _ => p
  | .lw p _ _ _ => p
  | .ll p _ _ _ => p
  | .sb p _ _ _ _ => p
  | .sh p _ _ _ _ => p
  | .sw p _ _ _ _ => p
  | .sc p _ _ _ _ => p
  | .bImm p _ => p
  | .bReg p _ _ => p
  | .blImm p _ => p
  | .blReg p _ _ => p
  | .brk p => p
  | .syscall p => p
  | .fence p => p
  | .eret p => p
  | .flush p _ _ _ => p
  | .mfc p _ _ => p
  | .mtc p _ _ => p
  | .mult p _ _ _ _ => p
  | .div p _ _ _ _ _ => p
  | .mfhi p _ => p
  | .mthi p _ => p

/-- The format of an instruction (30_encoding.md R95). -/
def Instr.format : Instr → Format
  | .addShort _ _ _ _ _ => .alu2Short
  | .addReg _ _ _ _ _ _ => .alu2Reg
  | .addLong _ _ _ _ => .aluLong
  | .andShort _ _ _ _ _ => .alu2Short
  | .andReg _ _ _ _ _ _ => .alu2Reg
  | .andLong _ _ _ _ => .aluLong
  | .norShort _ _ _ _ _ => .alu2Short
  | .norReg _ _ _ _ _ _ => .alu2Reg
  | .norLong _ _ _ _ => .aluLong
  | .orShort _ _ _ _ _ => .alu2Short
  | .orReg _ _ _ _ _ _ => .alu2Reg
  | .orLong _ _ _ _ => .aluLong
  | .subShort _ _ _ _ _ => .alu2Short
  | .subReg _ _ _ _ _ _ => .alu2Reg
  | .subLong _ _ _ _ => .aluLong
  | .rsbShort _ _ _ _ _ => .alu2Short
  | .rsbReg _ _ _ _ _ _ => .alu2Reg
  | .rsbLong _ _ _ _ => .aluLong
  | .xorShort _ _ _ _ _ => .alu2Short
  | .xorReg _ _ _ _ _ _ => .alu2Reg
  | .xorLong _ _ _ _ => .aluLong
  | .movShort _ _ _ _ _ => .alu1Short
  | .movReg _ _ _ _ _ => .alu1Reg
  | .movRegsh _ _ _ _ _ => .alu1Regsh
  | .movLong _ _ _ => .aluLong
  | .mvnShort _ _ _ _ _ => .alu1Short
  | .mvnReg _ _ _ _ _ => .alu1Reg
  | .mvnRegsh _ _ _ _ _ => .alu1Regsh
  | .mvnLong _ _ _ => .aluLong
  | .sxbShort _ _ _ _ _ => .alu1Short
  | .sxbReg _ _ _ _ _ => .alu1Reg
  | .sxbRegsh _ _ _ _ _ => .alu1Regsh
  | .sxbLong _ _ _ => .aluLong
  | .sxhShort _ _ _ _ _ => .alu1Short
  | .sxhReg _ _ _ _ _ => .alu1Reg
  | .sxhRegsh _ _ _ _ _ => .alu1Regsh
  | .sxhLong _ _ _ => .aluLong
  | .cmpltuShort _ _ _ _ _ => .cmpShort
  | .cmpltuReg _ _ _ _ _ _ => .cmpReg
  | .cmpltuLong _ _ _ _ => .aluLong
  | .cmpleuShort _ _ _ _ _ => .cmpShort
  | .cmpleuReg _ _ _ _ _ _ => .cmpReg
  | .cmpleuLong _ _ _ _ => .aluLong
  | .cmpeqShort _ _ _ _ _ => .cmpShort
  | .cmpeqReg _ _ _ _ _ _ => .cmpReg
  | .cmpeqLong _ _ _ _ => .aluLong
  | .cmpltsShort _ _ _ _ _ => .cmpShort
  | .cmpltsReg _ _ _ _ _ _ => .cmpReg
  | .cmpltsLong _ _ _ _ => .aluLong
  | .cmplesShort _ _ _ _ _ => .cmpShort
  | .cmplesReg _ _ _ _ _ _ => .cmpReg
  | .cmplesLong _ _ _ _ => .aluLong
  | .cmpbsShort _ _ _ _ _ => .cmpShort
  | .cmpbsReg _ _ _ _ _ _ => .cmpReg
  | .cmpbsLong _ _ _ _ => .aluLong
  | .cmpbcShort _ _ _ _ _ => .cmpShort
  | .cmpbcReg _ _ _ _ _ _ => .cmpReg
  | .cmpbcLong _ _ _ _ => .aluLong
  | .lb _ _ _ _ => .load
  | .lh _ _ _ _ => .load
  | .lw _ _ _ _ => .load
  | .ll _ _ _ _ => .load
  | .sb _ _ _ _ _ => .store
  | .sh _ _ _ _ _ => .store
  | .sw _ _ _ _ _ => .store
  | .sc _ _ _ _ _ => .store
  | .bImm _ _ => .brImm
  | .bReg _ _ _ => .brReg
  | .blImm _ _ => .brImm
  | .blReg _ _ _ => .brReg
  | .brk _ => .ctrl
  | .syscall _ => .ctrl
  | .fence _ => .ctrl
  | .eret _ => .ctrl
  | .flush _ _ _ _ => .ctrl
  | .mfc _ _ _ => .ctrl
  | .mtc _ _ _ => .ctrl
  | .mult _ _ _ _ _ => .ctrl
  | .div _ _ _ _ _ _ => .ctrl
  | .mfhi _ _ => .ctrl
  | .mthi _ _ => .ctrl

/-- The type that each format belongs to (30_encoding.md R95). -/
def Format.type : Format → InstrType
  | .alu2Short | .cmpShort | .alu1Short | .alu2Reg | .cmpReg | .alu1Reg | .alu1Regsh | .aluLong => .alu
  | .load | .store => .memory
  | .brImm | .brReg | .ctrl => .control

end Sys2Proof
end

