-- ==== Sys2Proof/Machine/State.lean ====
section
/-! DEFINITION. The state of one OSOROM core (10_state.md R10 to R31), plain data, its value after reset (R32), and the
reasons a step can stop. -/

namespace Sys2Proof.Machine

/-- RAM as a list of (physical address, byte) pairs; Machine/Memory.lean says what an unlisted address reads as. -/
abbrev Memory := List Host.Cell

/-- Older values of words of RAM: (word-aligned physical address, a value the word held). -/
abbrev Versions := List (Nat × Word)

/-- The two modes (10_state.md R17). -/
inductive Mode where
  | kernel
  | user
deriving DecidableEq, Repr

/-- The sizes of a data access (20_memory.md R47). -/
inductive Size where
  | byte
  | half
  | word
deriving DecidableEq, Repr

/-- A recorded access to the peripheral region (20_memory.md R49, U29). -/
inductive PeriphEvent where
  /-- A load: where, how wide, and the value drawn. -/
  | load (pa : Word) (size : Size) (value : Word)
  /-- A store: where, how wide, and the register whose low bytes were sent. -/
  | store (pa : Word) (size : Size) (value : Word)
deriving DecidableEq, Repr

/-- The coprocessor registers (10_state.md R19). -/
inductive Cpr where
  | pflags
  | ptb
  | eha
  | epc
  | ec0
  | ec1
  | ec2
  | ec3
  | ea0
  | ea1
  | sp0
  | sp1
  | sp2
  | sp3
deriving DecidableEq, Repr

/-- The state of the core. INVENTORY.md lists each field with its rule and reset value. -/
structure State where
  /-- The model's own: the parameters of the implementation (00_scope.md R5), which no step changes. -/
  params : Params
  /-- R0 to R31 (10_state.md R10). -/
  regs : Vector Word 32
  /-- The address of the packet being executed (R13). -/
  pc : Word
  /-- P0 (R15). -/
  p0 : Bool
  /-- P1 (R15). -/
  p1 : Bool
  /-- P2 (R15). P3 is always 1 and has no field. -/
  p2 : Bool
  /-- The multiply/division overflow register (R16). -/
  ovf : Word
  /-- The system mode flag (R17). -/
  mode : Mode
  /-- The memory link bit (R18). -/
  link : Bool
  /-- PFLAGS: bit 0 IE, bit 1 PG (R20). -/
  pflags : Word
  /-- PTB (R21). -/
  ptb : Word
  /-- EHA (R22). -/
  eha : Word
  /-- EPC (R23). -/
  epc : Word
  /-- EC0 (R24). -/
  ec0 : Word
  /-- EC1 (R24). -/
  ec1 : Word
  /-- EC2 (R24). -/
  ec2 : Word
  /-- EC3 (R24). -/
  ec3 : Word
  /-- EA0 (R25). -/
  ea0 : Word
  /-- EA1 (R25). -/
  ea1 : Word
  /-- SP0 (R26). -/
  sp0 : Word
  /-- SP1 (R26). -/
  sp1 : Word
  /-- SP2 (R26). -/
  sp2 : Word
  /-- SP3 (R26). -/
  sp3 : Word
  /-- RAM, as the core's own loads see it (20_memory.md R62, R66). -/
  mem : Memory
  /-- Older values of stored words that L2 may still hold: dirty L1 data lines (10_state.md R30, 20_memory.md R53). -/
  l2Old : Versions
  /-- Older values of stored words that a fetch may still see (10_state.md R30, 20_memory.md R68). -/
  l1iOld : Versions
  /-- The data TLB (10_state.md R29, 20_memory.md R58). -/
  dtlb : List TlbEntry
  /-- The instruction TLB (10_state.md R29, 20_memory.md R58). -/
  itlb : List TlbEntry
  /-- The level of the interrupt request input at the coming step (10_state.md R31). -/
  irq : Bool
  /-- The model's own: recorded peripheral accesses, oldest first (20_memory.md R49). -/
  periphLog : List PeriphEvent
  /-- The model's own: the number of steps taken, to which every free value is applied. -/
  tick : Nat
deriving DecidableEq, Repr

/-- Model faults: there are none. Every exception of the spec is an architectural one and is taken as a next state
(60_exceptions.md R220), every address has an outcome (20_memory.md R64), and every register holds a value. -/
inductive Fault where
deriving DecidableEq, Repr

/-- Why the model gives an instruction or a packet no meaning. -/
inductive Refusal where
  /-- Raised by exec's arm of an instruction without a meaning. Safe: the model stops. No arm raises it. -/
  | notModelled (mnemonic : String)
  /-- Raised by an executing SB, SH, SW or SC whose M bit is 1: the spec gives it neither a result nor a fault
  (30_encoding.md R104). Safe: the model stops. -/
  | storeWithMBit
  /-- Raised by an executing FLUSH whose C bit is 1: the spec gives it neither a result nor a fault
  (30_encoding.md R104). Safe: the model stops. -/
  | flushWithCBit
  /-- Raised by a packet whose slots 0 and 1 hold two memory instructions whose outcome the spec leaves undefined
  (20_memory.md R71), where MEM_LANE_ORDER has no value. Safe: the model stops. -/
  | memorySlotsConflict
deriving DecidableEq, Repr

/-- The state after reset (10_state.md R32, 70_reset_and_hazards.md R260): kernel mode, PFLAGS = 0, link = 0, TLBs empty,
no dirty line, pc = RESET_PC. The spec leaves every other register and the memory unspecified; the values here are
the model's (log 1 to log 5, log 11). It is given for every implementation, whose parameters are `ps`. -/
def State.resetWith (ps : Params) : State where
  params := ps
  regs := Vector.replicate 32 0#32
  pc := ps.resetPc
  p0 := false
  p1 := false
  p2 := false
  ovf := 0#32
  mode := .kernel
  link := false
  pflags := 0#32
  ptb := 0#32
  eha := 0#32
  epc := 0#32
  ec0 := 0#32
  ec1 := 0#32
  ec2 := 0#32
  ec3 := 0#32
  ea0 := 0#32
  ea1 := 0#32
  sp0 := 0#32
  sp1 := 0#32
  sp2 := 0#32
  sp3 := 0#32
  mem := []
  l2Old := []
  l1iOld := []
  dtlb := []
  itlb := []
  irq := false
  periphLog := []
  tick := 0

/-- The state after reset with the parameters at their defaults (log 35). -/
def State.reset : State := State.resetWith Params.default

end Sys2Proof.Machine
end

