-- ==== Sys2Proof/Machine/Memory.lean ====
section
/-! DEFINITION. RAM as a canonical list of bytes: reading, writing, little-endian halves and words (20_memory.md R43,
R44), the physical address map (R62 to R64), and the older versions of stored words (R53, R68). -/

namespace Sys2Proof.Machine

/-- What a byte of RAM that nothing has written reads as. DESIGN CHOICE (log 3): 0. -/
def Memory.unlisted : Byte := 0#8

/-- Read one byte. -/
def Memory.read : Memory → Nat → Byte
  | [], _ => Memory.unlisted
  | (a, b) :: m, x => if x = a then b else Memory.read m x

/-- Put a cell before the first cell at a higher address. -/
def Memory.insert : Memory → Nat → Byte → Memory
  | [], x, v => [(x, v)]
  | (a, b) :: m, x, v => if x < a then (x, v) :: (a, b) :: m else (a, b) :: Memory.insert m x v

/-- Write one byte. A byte equal to what an unlisted address reads as is not listed. -/
def Memory.write (m : Memory) (x : Nat) (v : Byte) : Memory :=
  let rest := m.filter (fun c => decide (c.1 ≠ x))
  if v = Memory.unlisted then rest else Memory.insert rest x v

/-- The canonical form: addresses strictly rising, and no byte equal to what an unlisted address reads as. -/
def Memory.wf : Memory → Bool
  | [] => true
  | [(_, b)] => decide (b ≠ Memory.unlisted)
  | (a, b) :: (a', b') :: m => decide (a < a') && decide (b ≠ Memory.unlisted) && Memory.wf ((a', b') :: m)

/-- The number of bytes of an access (20_memory.md R47). -/
def Size.bytes : Size → Nat
  | .byte => 1
  | .half => 2
  | .word => 4

/-- Keep the low bytes of a value that an access of this size carries, and zero the rest. -/
def Size.truncate (sz : Size) (v : Word) : Word :=
  match sz with
  | .byte => (v.extractLsb' 0 8).zeroExtend 32
  | .half => (v.extractLsb' 0 16).zeroExtend 32
  | .word => v

/-- The little-endian word at `a` (20_memory.md R44). -/
def Memory.readWord (m : Memory) (a : Nat) : Word :=
  m.read (a + 3) ++ m.read (a + 2) ++ m.read (a + 1) ++ m.read a

/-- The little-endian value of `sz.bytes` bytes at `a`, zero-extended (20_memory.md R44). -/
def Memory.readSized (m : Memory) (a : Nat) (sz : Size) : Word :=
  match sz with
  | .byte => (m.read a).zeroExtend 32
  | .half => (m.read (a + 1) ++ m.read a).zeroExtend 32
  | .word => m.readWord a

/-- Store the low `sz.bytes` bytes of `v` at `a`, little-endian (20_memory.md R44). -/
def Memory.writeSized (m : Memory) (a : Nat) (sz : Size) (v : Word) : Memory :=
  match sz with
  | .byte => m.write a (v.extractLsb' 0 8)
  | .half => (m.write a (v.extractLsb' 0 8)).write (a + 1) (v.extractLsb' 8 8)
  | .word =>
    (((m.write a (v.extractLsb' 0 8)).write (a + 1) (v.extractLsb' 8 8)).write (a + 2) (v.extractLsb' 16 8)).write
      (a + 3) (v.extractLsb' 24 8)

/-- RAM: physical 0x00000000 to 0x1FFFFFFF (20_memory.md R62). -/
def isRam (pa : Word) : Bool := decide (pa.toNat < 0x20000000)

/-- ValidPhys (20_memory.md R64): RAM, or a peripheral address that answers (log 10). -/
def validPhys (pa : Word) : Bool :=
  isRam pa || (decide (0x80000000 ≤ pa.toNat) && Config.periphValid pa)

/-- The word-aligned address of the word that holds physical address `pa`. -/
def wordAddr (pa : Word) : Nat := 4 * (pa.toNat / 4)

/-- The older values kept for the word at `a`. -/
def Versions.at (vs : Versions) (a : Nat) : List Word :=
  (vs.filter (fun v => decide (v.1 = a))).map (fun v => v.2)

/-- Keep one more older value of the word at `a`. -/
def Versions.add (vs : Versions) (a : Nat) (w : Word) : Versions :=
  if (a, w) ∈ vs then vs else (a, w) :: vs

/-- The cache line of an address (00_scope.md R5, LINE_BYTES). -/
def lineOf (a : Nat) : Nat := a / Config.lineBytes

/-- Drop every older value in the line of `a`. -/
def Versions.dropLine (vs : Versions) (a : Nat) : Versions :=
  vs.filter (fun v => decide (lineOf v.1 ≠ lineOf a))

/-- The older values in the line of `a`. -/
def Versions.inLine (vs : Versions) (a : Nat) : Versions :=
  vs.filter (fun v => decide (lineOf v.1 = lineOf a))

/-- One of the admitted values of a word: an older one if `pick` names one, else the current one. -/
def admitted (current : Word) (older : List Word) (pick : Nat) : Word := older.getD pick current

end Sys2Proof.Machine
end

