-- ==== Sys2Proof/WellFormed.lean ====
section
/-! DEFINITION. Which instructions have a meaning in the spec whatever the state: a store with M = 1 and a FLUSH with
C = 1 have none (30_encoding.md R104), and MFC and MTC name one of the fourteen coprocessor registers (10_state.md
R19, R28). The operand fields need no further check: their types hold exactly the values their fields can. -/

namespace Sys2Proof

/-- The coprocessor register numbers that 10_state.md R19 defines: 0 to 9 and 16 to 19. -/
def cprDefined (n : CprNum) : Bool := decide (n.val ≤ 9) || (decide (16 ≤ n.val) && decide (n.val ≤ 19))

/-- An instruction the spec gives a meaning to: M = 0, C = 0, a defined coprocessor register. -/
def Instr.wf : Instr → Bool
  | .addShort _ _ _ _ _ => true
  | .addReg _ _ _ _ _ _ => true
  | .addLong _ _ _ _ => true
  | .andShort _ _ _ _ _ => true
  | .andReg _ _ _ _ _ _ => true
  | .andLong _ _ _ _ => true
  | .norShort _ _ _ _ _ => true
  | .norReg _ _ _ _ _ _ => true
  | .norLong _ _ _ _ => true
  | .orShort _ _ _ _ _ => true
  | .orReg _ _ _ _ _ _ => true
  | .orLong _ _ _ _ => true
  | .subShort _ _ _ _ _ => true
  | .subReg _ _ _ _ _ _ => true
  | .subLong _ _ _ _ => true
  | .rsbShort _ _ _ _ _ => true
  | .rsbReg _ _ _ _ _ _ => true
  | .rsbLong _ _ _ _ => true
  | .xorShort _ _ _ _ _ => true
  | .xorReg _ _ _ _ _ _ => true
  | .xorLong _ _ _ _ => true
  | .movShort _ _ _ _ _ => true
  | .movReg _ _ _ _ _ => true
  | .movRegsh _ _ _ _ _ => true
  | .movLong _ _ _ => true
  | .mvnShort _ _ _ _ _ => true
  | .mvnReg _ _ _ _ _ => true
  | .mvnRegsh _ _ _ _ _ => true
  | .mvnLong _ _ _ => true
  | .sxbShort _ _ _ _ _ => true
  | .sxbReg _ _ _ _ _ => true
  | .sxbRegsh _ _ _ _ _ => true
  | .sxbLong _ _ _ => true
  | .sxhShort _ _ _ _ _ => true
  | .sxhReg _ _ _ _ _ => true
  | .sxhRegsh _ _ _ _ _ => true
  | .sxhLong _ _ _ => true
  | .cmpltuShort _ _ _ _ _ => true
  | .cmpltuReg _ _ _ _ _ _ => true
  | .cmpltuLong _ _ _ _ => true
  | .cmpleuShort _ _ _ _ _ => true
  | .cmpleuReg _ _ _ _ _ _ => true
  | .cmpleuLong _ _ _ _ => true
  | .cmpeqShort _ _ _ _ _ => true
  | .cmpeqReg _ _ _ _ _ _ => true
  | .cmpeqLong _ _ _ _ => true
  | .cmpltsShort _ _ _ _ _ => true
  | .cmpltsReg _ _ _ _ _ _ => true
  | .cmpltsLong _ _ _ _ => true
  | .cmplesShort _ _ _ _ _ => true
  | .cmplesReg _ _ _ _ _ _ => true
  | .cmplesLong _ _ _ _ => true
  | .cmpbsShort _ _ _ _ _ => true
  | .cmpbsReg _ _ _ _ _ _ => true
  | .cmpbsLong _ _ _ _ => true
  | .cmpbcShort _ _ _ _ _ => true
  | .cmpbcReg _ _ _ _ _ _ => true
  | .cmpbcLong _ _ _ _ => true
  | .lb _ _ _ _ => true
  | .lh _ _ _ _ => true
  | .lw _ _ _ _ => true
  | .ll _ _ _ _ => true
  | .sb _ _ m _ _ => !m
  | .sh _ _ m _ _ => !m
  | .sw _ _ m _ _ => !m
  | .sc _ _ m _ _ => !m
  | .bImm _ _ => true
  | .bReg _ _ _ => true
  | .blImm _ _ => true
  | .blReg _ _ _ => true
  | .brk _ => true
  | .syscall _ => true
  | .fence _ => true
  | .eret _ => true
  | .flush _ c _ _ => !c
  | .mfc _ _ cprs => cprDefined cprs
  | .mtc _ cprd _ => cprDefined cprd
  | .mult _ _ _ _ _ => true
  | .div _ _ _ _ _ _ => true
  | .mfhi _ _ => true
  | .mthi _ _ => true

end Sys2Proof
end

