-- ==== Sys2Proof/Machine/Ops.lean ====
section
/-! DEFINITION. The named operations over the state: reading and writing registers, predicates and coprocessor
registers (10_state.md), stores and flushes (20_memory.md), taking an exception (60_exceptions.md R235) and returning
from one (R240). -/

namespace Sys2Proof.Machine

/-! General registers, predicates, mode and flags. -/

/-- `x[r]` (10_state.md R10). -/
def State.readReg (s : State) (r : Reg) : Word := s.regs[r.val]

/-- `x[r] <- v` (10_state.md R10, R11: no register is hardwired). -/
def State.writeReg (s : State) (r : Reg) (v : Word) : State := { s with regs := s.regs.set r.val v }

/-- `p[n]` (10_state.md R15): P3 reads 1 always. -/
def State.readPred (s : State) (n : PredReg) : Bool :=
  match n with
  | 0 => s.p0
  | 1 => s.p1
  | 2 => s.p2
  | 3 => true

/-- `p[n] <- b` (10_state.md R15): a write to P3 is ignored. -/
def State.writePred (s : State) (n : PredReg) (b : Bool) : State :=
  match n with
  | 0 => { s with p0 := b }
  | 1 => { s with p1 := b }
  | 2 => { s with p2 := b }
  | 3 => s

/-- An instruction executes when its predicate, inverted if INV is set, is 1 (40_packet_execution.md R113). -/
def State.holds (s : State) (p : Pred) : Bool := Bool.xor (s.readPred p.reg) p.inv

/-- IE, PFLAGS bit 0 (10_state.md R20). -/
def State.ie (s : State) : Bool := s.pflags.getLsbD 0

/-- PG, PFLAGS bit 1 (10_state.md R20). -/
def State.pg (s : State) : Bool := s.pflags.getLsbD 1

/-- The bits of PFLAGS that exist (10_state.md R20, D28). -/
def pflagsMask : Word := 0x3#32

/-- PFLAGS with IE set to `b`; PG is unchanged (60_exceptions.md R235, 46_system.md R203). -/
def State.setIe (s : State) (b : Bool) : State :=
  { s with pflags := (s.pflags &&& 0xFFFFFFFE#32) ||| (BitVec.ofBool b).zeroExtend 32 }

/-! Coprocessor registers. -/

/-- The coprocessor register of a number, if 10_state.md R19 defines it. -/
def cprOf (n : CprNum) : Option Cpr :=
  match n.val with
  | 0 => some .pflags
  | 1 => some .ptb
  | 2 => some .eha
  | 3 => some .epc
  | 4 => some .ec0
  | 5 => some .ec1
  | 6 => some .ec2
  | 7 => some .ec3
  | 8 => some .ea0
  | 9 => some .ea1
  | 16 => some .sp0
  | 17 => some .sp1
  | 18 => some .sp2
  | 19 => some .sp3
  | _ => none

/-- `cpr[c]` (10_state.md R19, R27); PFLAGS reads with bits 31:2 = 0 (R20). -/
def State.readCpr (s : State) (c : Cpr) : Word :=
  match c with
  | .pflags => s.pflags &&& pflagsMask
  | .ptb => s.ptb
  | .eha => s.eha
  | .epc => s.epc
  | .ec0 => s.ec0
  | .ec1 => s.ec1
  | .ec2 => s.ec2
  | .ec3 => s.ec3
  | .ea0 => s.ea0
  | .ea1 => s.ea1
  | .sp0 => s.sp0
  | .sp1 => s.sp1
  | .sp2 => s.sp2
  | .sp3 => s.sp3

/-- `cpr[c] <- v` by MTC (46_system.md R206): PFLAGS keeps bits 1:0 only, and a write to PTB removes every non-global
entry from both TLBs (20_memory.md R60). -/
def State.writeCpr (s : State) (c : Cpr) (v : Word) : State :=
  match c with
  | .pflags => { s with pflags := v &&& pflagsMask }
  | .ptb => { s with ptb := v, dtlb := s.dtlb.filter (fun e => e.g), itlb := s.itlb.filter (fun e => e.g) }
  | .eha => { s with eha := v }
  | .epc => { s with epc := v }
  | .ec0 => { s with ec0 := v }
  | .ec1 => { s with ec1 := v }
  | .ec2 => { s with ec2 := v }
  | .ec3 => { s with ec3 := v }
  | .ea0 => { s with ea0 := v }
  | .ea1 => { s with ea1 := v }
  | .sp0 => { s with sp0 := v }
  | .sp1 => { s with sp1 := v }
  | .sp2 => { s with sp2 := v }
  | .sp3 => { s with sp3 := v }

/-! Memory, caches and TLBs. -/

/-- A store to RAM: the bytes change for the core's own loads at once (20_memory.md R66), and the word's value before
the store stays visible to walks until FLUSH.DATA (R53) and to fetches until FLUSH.DATA and FLUSH.INST (R68). -/
def State.storeRam (s : State) (pa : Word) (sz : Size) (v : Word) : State :=
  let old := s.mem.readWord (wordAddr pa)
  { s with
    mem := s.mem.writeSized pa.toNat sz v
    l2Old := s.l2Old.add (wordAddr pa) old
    l1iOld := s.l1iOld.add (wordAddr pa) old }

/-- Record an access to the peripheral region (20_memory.md R49). -/
def State.logEvent (s : State) (e : PeriphEvent) : State := { s with periphLog := s.periphLog ++ [e] }

/-- A store commits: to RAM, or to the peripheral region as a recorded event (20_memory.md R49, R57). -/
def State.commitStore (s : State) (pa : Word) (sz : Size) (v : Word) : State :=
  if isRam pa then s.storeRam pa sz v else s.logEvent (.store pa sz (sz.truncate v))

/-- FLUSH.DATA of the line of `pa`: written back to L2, so that no older value is left there (46_system.md R204). -/
def State.flushDataLine (s : State) (pa : Word) : State := { s with l2Old := s.l2Old.dropLine pa.toNat }

/-- FLUSH.INST of the line of `pa`: a later fetch reads what L2 holds, so only the older values L2 may still hold
remain (46_system.md R204, 20_memory.md R68). -/
def State.flushInstLine (s : State) (pa : Word) : State :=
  { s with l1iOld := s.l1iOld.dropLine pa.toNat ++ s.l2Old.inLine pa.toNat }

/-- Remove every entry of one TLB for a virtual page, whatever its G flag (46_system.md R204). -/
def State.flushTlbPage (s : State) (which : TlbId) (vpage : BitVec 20) : State :=
  match which with
  | .data => { s with dtlb := s.dtlb.filter (fun e => decide (e.vpage ≠ vpage)) }
  | .inst => { s with itlb := s.itlb.filter (fun e => decide (e.vpage ≠ vpage)) }

/-- Add an entry to a TLB (20_memory.md R58: a set of entries). -/
def State.fillTlb (s : State) (which : TlbId) (e : TlbEntry) : State :=
  match which with
  | .data => { s with dtlb := if e ∈ s.dtlb then s.dtlb else e :: s.dtlb }
  | .inst => { s with itlb := if e ∈ s.itlb then s.itlb else e :: s.itlb }

/-! Exceptions. -/

/-- An exception raised by the instruction in a slot (60_exceptions.md R220, R222 to R230); a memory exception
carries the effective address that goes to EA (R237). -/
inductive Exn where
  | illegalInstruction
  | insufficientPermissions
  | duplicateDestination
  | dataPageFault (ea : Word)
  | invalidPhysicalAddress (ea : Word)
  | divideByZero
  | syscall
  | brk
deriving DecidableEq, Repr

/-- EXNTYPE codes (60_exceptions.md R220, Table 1.1), as an EC register holds them (10_state.md R24). -/
def Exn.code : Exn → Word
  | .illegalInstruction => 2#32
  | .insufficientPermissions => 3#32
  | .duplicateDestination => 4#32
  | .dataPageFault _ => 5#32
  | .invalidPhysicalAddress _ => 6#32
  | .divideByZero => 7#32
  | .syscall => 9#32
  | .brk => 10#32

/-- The address a lane's exception puts into its EA register, if any (60_exceptions.md R237). -/
def Exn.ea : Exn → Option Word
  | .dataPageFault a => some a
  | .invalidPhysicalAddress a => some a
  | .illegalInstruction => none
  | .insufficientPermissions => none
  | .duplicateDestination => none
  | .divideByZero => none
  | .syscall => none
  | .brk => none

/-- "No Error", code 0 (60_exceptions.md R220, R236). -/
def codeNoError : Word := 0#32
/-- Page Fault on Instruction Fetch, code 1 (60_exceptions.md R221). -/
def codeIFetchPageFault : Word := 1#32
/-- Invalid Physical Address, code 6, of a fetch (60_exceptions.md R226). -/
def codeInvalidPhysicalAddress : Word := 6#32
/-- Interrupt, code 8 (60_exceptions.md R228). -/
def codeInterrupt : Word := 8#32

/-- The EC value of a lane: its code, or No Error (60_exceptions.md R236). -/
def laneCode (e : Option Exn) : Word :=
  match e with
  | some x => x.code
  | none => codeNoError

/-- Bit `n` of a word set to `b`, every other bit 0. -/
def bitAt (n : Nat) (b : Bool) : Word := (BitVec.ofBool b).zeroExtend 32 <<< n

/-- The low four bits of an address dropped: a packet address (20_memory.md R46). -/
def packetAddr (a : Word) : Word := a &&& 0xFFFFFFF0#32

/-- EPC as trap entry writes it (60_exceptions.md R235, 10_state.md R23). -/
def State.savedEpc (s : State) : Word :=
  packetAddr s.pc ||| bitAt s.params.epcMBit.val (decide (s.mode = .kernel)) ||| bitAt s.params.epcIfBit.val s.ie

/-- Trap entry (60_exceptions.md R235), all at once: EPC saves the packet's address, the mode and IE; the four EC
registers get `c0` to `c3` (R236); EA0 and EA1 change only where an address is given (R237); kernel mode, IE = 0,
link = 0, and pc at EHA with its low four bits dropped (10_state.md R22). -/
def trapEntry (c0 c1 c2 c3 : Word) (a0 a1 : Option Word) (s : State) : State :=
  { s with
    epc := s.savedEpc
    ec0 := c0
    ec1 := c1
    ec2 := c2
    ec3 := c3
    ea0 := a0.getD s.ea0
    ea1 := a1.getD s.ea1
    mode := .kernel
    pflags := (s.setIe false).pflags
    link := false
    pc := packetAddr s.eha }

/-- Trap entry for the exceptions of a packet's lanes (60_exceptions.md R234, R236, R237). -/
def trapLanes (e0 e1 e2 e3 : Option Exn) (s : State) : State :=
  trapEntry (laneCode e0) (laneCode e1) (laneCode e2) (laneCode e3) (e0.bind Exn.ea) (e1.bind Exn.ea) s

/-- Trap entry for an event that belongs to no lane, an interrupt or a fetch exception: the code goes to EC0 and EA0,
EA1 are unchanged (60_exceptions.md R221, R226, R228, R236). -/
def trapNoLane (code : Word) (s : State) : State :=
  trapEntry code codeNoError codeNoError codeNoError none none s

/-- The mode that EPC[M] names (46_system.md R203). -/
def State.epcMode (s : State) : Mode := if s.epc.getLsbD s.params.epcMBit.val then .kernel else .user

/-- The interrupt flag that EPC[IF] names (46_system.md R203). -/
def State.epcIf (s : State) : Bool := s.epc.getLsbD s.params.epcIfBit.val

/-- Return from a trap (60_exceptions.md R240, 46_system.md R203): pc, mode and IE from EPC, link cleared. -/
def trapReturn (s : State) : State :=
  { s with
    pc := packetAddr s.epc
    mode := s.epcMode
    pflags := (s.setIe s.epcIf).pflags
    link := false }

end Sys2Proof.Machine
end

