-- ==== Sys2Proof/Machine/Flags.lean ====
section
/-! DEFINITION. The conditions that the seven compares write into a predicate (42_compare.md R150 to R156). Predicates
are the only condition state: there are no carry, zero, negative or overflow flags (10_state.md R15). -/

namespace Sys2Proof.Machine

/-- CMPLTU: unsigned less than (42_compare.md R150). -/
def condLtu (a b : Word) : Bool := decide (a.toNat < b.toNat)

/-- CMPLEU: unsigned less than or equal (42_compare.md R151). -/
def condLeu (a b : Word) : Bool := decide (a.toNat ≤ b.toNat)

/-- CMPEQ: all 32 bits equal (42_compare.md R152). -/
def condEq (a b : Word) : Bool := decide (a = b)

/-- CMPLTS: signed less than (42_compare.md R153). -/
def condLts (a b : Word) : Bool := decide (a.toInt < b.toInt)

/-- CMPLES: signed less than or equal (42_compare.md R154). -/
def condLes (a b : Word) : Bool := decide (a.toInt ≤ b.toInt)

/-- CMPBS: some bit selected by `b` is set in `a` (42_compare.md R155). -/
def condBs (a b : Word) : Bool := decide (a &&& b ≠ 0#32)

/-- CMPBC in the reading that CMPBC_READING names (42_compare.md R156, 90_conflicts.md C3). -/
def condBc (reading : CmpbcReading) (a b : Word) : Bool :=
  match reading with
  | .anyClear => decide (~~~a &&& b ≠ 0#32)
  | .allClear => decide (a &&& b = 0#32)

end Sys2Proof.Machine
end

