-- ==== Sys2Proof/Machine/Operands.lean ====
section
/-! DEFINITION. The operand forms: Op2 (40_packet_execution.md R120 to R124), branch offsets and targets (30_encoding.md
R107, 43_branch.md R160), effective addresses (44_load_store.md R178, R179) and their alignment (20_memory.md R45). -/

namespace Sys2Proof.Machine

/-- The 10-bit short immediate: zero-extended, rotated right by twice ROTATE (30_encoding.md R106, R120). -/
def shortImm10 (c : BitVec 10) (rot : BitVec 4) : Word := (c.zeroExtend 32).rotateRight (2 * rot.toNat)

/-- The 15-bit short immediate {CONSTHI, CONSTLOW} (30_encoding.md R84, R106, R121). -/
def shortImm15 (hi : BitVec 5) (lo : BitVec 10) (rot : BitVec 4) : Word :=
  ((hi ++ lo).zeroExtend 32).rotateRight (2 * rot.toNat)

/-- `v` shifted by a constant 0 to 31 (40_packet_execution.md R123); an amount of 0 gives `v` for every type. -/
def shiftConst (shf : Shf) (amt : BitVec 5) (v : Word) : Word :=
  match shf with
  | .lsl => v <<< amt.toNat
  | .lsr => v >>> amt.toNat
  | .asr => v.sshiftRight amt.toNat
  | .ror => v.rotateRight amt.toNat

/-- `v` shifted by the unsigned 32-bit amount `a` of a register (40_packet_execution.md R124): above 31 the logical
shifts give 0, ASR gives the sign, ROR rotates by the amount modulo 32. -/
def shiftReg (shf : Shf) (a v : Word) : Word :=
  match shf with
  | .lsl => if a.toNat ≤ 31 then v <<< a.toNat else 0#32
  | .lsr => if a.toNat ≤ 31 then v >>> a.toNat else 0#32
  | .asr => if a.toNat ≤ 31 then v.sshiftRight a.toNat else if v.getLsbD 31 then 0xFFFFFFFF#32 else 0#32
  | .ror => v.rotateRight (a.toNat % 32)

/-- The byte offset of BR_IMM: sext_29({OFFSET, 0b0000}) (30_encoding.md R107). -/
def branchImmOffset (off : BitVec 25) : Word := (off ++ 0#4).signExtend 32

/-- The byte offset of BR_REG: sext_24({OFFSET, 0b0000}) (30_encoding.md R107). -/
def branchRegOffset (off : BitVec 20) : Word := (off ++ 0#4).signExtend 32

/-- The target of an immediate branch at `pc` (43_branch.md R160). -/
def branchImmTarget (pc : Word) (off : BitVec 25) : Word := pc + branchImmOffset off

/-- The target of a register branch, rounded down to 16 bytes (43_branch.md R160). -/
def branchRegTarget (base : Word) (off : BitVec 20) : Word := packetAddr (base + branchRegOffset off)

/-- The effective address of a load (44_load_store.md R178). -/
def loadAddr (base : Word) (off : BitVec 12) : Word := base + off.signExtend 32

/-- The effective address of a store (44_load_store.md R179). -/
def storeAddr (base : Word) (off : BitVec 11) : Word := base + off.signExtend 32

/-- An effective address with the low bits that its access size ignores dropped (20_memory.md R45). -/
def Size.align (sz : Size) (ea : Word) : Word :=
  match sz with
  | .byte => ea
  | .half => ea &&& 0xFFFFFFFE#32
  | .word => ea &&& 0xFFFFFFFC#32

end Sys2Proof.Machine
end

