-- ==== Sys2Proof/Machine/Translate.lean ====
section
/-! DEFINITION. Address translation and protection (20_memory.md R50 to R61): the table walk, the TLBs, the permission
check; and the packet fetch (R43, R46, R68). -/

namespace Sys2Proof.Machine

/-- How a translation or an access can fail (20_memory.md R53 to R57). -/
inductive MemFault where
  | pageFault
  | invalidPhysical
deriving DecidableEq, Repr

/-- A translation: the entry a walk leaves in the TLB, if any, and the physical address or the failure. -/
structure Translation where
  fill   : Option TlbEntry
  result : Except MemFault Word
deriving DecidableEq

/-- PD INDEX of a virtual address (20_memory.md R51). -/
def pdIndex (va : Word) : BitVec 10 := va.extractLsb' 22 10
/-- PT INDEX of a virtual address (20_memory.md R51). -/
def ptIndex (va : Word) : BitVec 10 := va.extractLsb' 12 10
/-- OFFSET of a virtual address (20_memory.md R51). -/
def pageOffset (va : Word) : BitVec 12 := va.extractLsb' 0 12
/-- The virtual page of an address (20_memory.md R58). -/
def virtualPage (va : Word) : BitVec 20 := va.extractLsb' 12 20
/-- PHYSICAL PAGE BASE of an entry (20_memory.md R52), and the page part of PTB (10_state.md R21). -/
def pageBase (e : Word) : BitVec 20 := e.extractLsb' 12 20
/-- The G flag of an entry (20_memory.md R52). -/
def entryG (e : Word) : Bool := e.getLsbD 3
/-- The U flag of an entry (20_memory.md R52, C2). -/
def entryU (e : Word) : Bool := e.getLsbD 2
/-- The W flag of an entry (20_memory.md R52). -/
def entryW (e : Word) : Bool := e.getLsbD 1
/-- The P flag of an entry (20_memory.md R52). -/
def entryP (e : Word) : Bool := e.getLsbD 0

/-- ReadPhys32 of a walk at one level (20_memory.md R53): the stored entry or an older one still in L2; none where the
address is not a valid physical address. -/
def readEntry (s : State) (port : Port) (level : Nat) (pa : Word) : Option Word :=
  if validPhys pa then
    if isRam pa then
      some (admitted (s.mem.readWord pa.toNat) (s.l2Old.at pa.toNat) (Config.walkPick s.tick port level))
    else some (Config.periphEntry s.tick port level)
  else none

/-- The table walk (20_memory.md R53): the entry it finds when P = 1 at both levels. -/
def walk (s : State) (port : Port) (va : Word) : Except MemFault TlbEntry :=
  match readEntry s port 0 (pageBase s.ptb ++ pdIndex va ++ 0#2) with
  | none => .error .invalidPhysical
  | some pde =>
    if entryP pde = false then .error .pageFault
    else
      match readEntry s port 1 (pageBase pde ++ ptIndex va ++ 0#2) with
      | none => .error .invalidPhysical
      | some pte =>
        if entryP pte = false then .error .pageFault
        else
          .ok { vpage := virtualPage va
                base := pageBase pte
                w := entryW pde && entryW pte
                u := entryU pde && entryU pte
                g := entryG pde || entryG pte }

/-- The permission check (20_memory.md R54) of an access through an entry, and the physical address. -/
def checkEntry (s : State) (e : TlbEntry) (va : Word) (isStore : Bool) : Except MemFault Word :=
  if (decide (s.mode = .user) && !e.u) || (!e.w && isStore) then .error .pageFault
  else .ok (e.base ++ pageOffset va)

/-- The TLB entry an access uses, if it uses one (20_memory.md R58, R59). -/
def tlbLookup (s : State) (tlb : List TlbEntry) (port : Port) (va : Word) : Option TlbEntry :=
  (tlb.filter (fun e => decide (e.vpage = virtualPage va)))[Config.tlbPick s.tick port]?

/-- Translate a virtual address (20_memory.md R50, R57, R58): with PG = 0 it is the physical address.
A walk's entry may be left although the permission check fails (log 33). -/
def translate (s : State) (tlb : List TlbEntry) (port : Port) (va : Word) (isStore : Bool) : Translation :=
  if s.pg then
    match tlbLookup s tlb port va with
    | some e => { fill := none, result := checkEntry s e va isStore }
    | none =>
      match walk s port va with
      | .error f => { fill := none, result := .error f }
      | .ok e =>
        { fill := if Config.tlbFills s.tick port then some e else none
          result := checkEntry s e va isStore }
  else { fill := none, result := .ok va }

/-- Translate and check that the physical address is valid (20_memory.md R57, R64). -/
def translateValid (s : State) (tlb : List TlbEntry) (port : Port) (va : Word) (isStore : Bool) : Translation :=
  let t := translate s tlb port va isStore
  { fill := t.fill
    result :=
      match t.result with
      | .error f => .error f
      | .ok pa => if validPhys pa then .ok pa else .error .invalidPhysical }

/-- Add the entry a walk leaves, if any, to a TLB; nothing else changes. -/
def State.fillOption (s : State) (which : TlbId) (e : Option TlbEntry) : State :=
  { s with
    dtlb :=
      match which with
      | .data => e.elim s.dtlb (fun x => (s.fillTlb .data x).dtlb)
      | .inst => s.dtlb
    itlb :=
      match which with
      | .data => s.itlb
      | .inst => e.elim s.itlb (fun x => (s.fillTlb .inst x).itlb) }

/-- The word that a fetch reads for one slot from a physical address (20_memory.md R43, R68). -/
def fetchWord (s : State) (slot : Nat) (pa : Word) : Word :=
  if isRam pa then
    admitted (s.mem.readWord pa.toNat) (s.l1iOld.at pa.toNat) (Config.fetchPick s.tick slot)
  else Config.periphFetch s.tick slot

/-- The EC0 code of a fetch that failed (60_exceptions.md R221, R226). -/
def fetchFaultCode : MemFault → Word
  | .pageFault => codeIFetchPageFault
  | .invalidPhysical => codeInvalidPhysicalAddress

/-- The translation of pc for the packet fetch, with the instruction TLB (40_packet_execution.md R110, R221). A packet
lies in one page, so one translation serves its four words. -/
def fetchTranslation (s : State) : Translation := translateValid s s.itlb .fetch s.pc false

end Sys2Proof.Machine
end

