-- ==== Sys2Proof/Machine/Lane.lean ====
section
/-! DEFINITION. What one slot of a packet contributes (its lane) and how a packet ends: the lanes read the state from
before the packet, then either one trap is entered or every pending write is committed at once
(40_packet_execution.md R113 to R118). -/

namespace Sys2Proof.Machine

/-- A pending write (00_scope.md R6). -/
inductive Write where
  /-- `x[r] <- v`. -/
  | reg (r : Reg) (v : Word)
  /-- `p[n] <- b`. -/
  | pred (n : PredReg) (b : Bool)
  /-- `ovf <- v`. -/
  | ovf (v : Word)
  /-- `cpr[c] <- v` by MTC. -/
  | cpr (c : Cpr) (v : Word)
  /-- MemWrite of the low bytes of `v` at a physical address. -/
  | store (pa : Word) (sz : Size) (v : Word)
  /-- A recorded load from the peripheral region. -/
  | event (e : PeriphEvent)
  /-- `link <- b`. -/
  | link (b : Bool)
  /-- `pc <- target`. -/
  | pc (target : Word)
  /-- ERET: the return from a trap. -/
  | trapReturn
  /-- FLUSH.DATA of the line of a physical address. -/
  | flushData (pa : Word)
  /-- FLUSH.INST of the line of a physical address. -/
  | flushInst (pa : Word)
  /-- FLUSH.DTLB or FLUSH.ITLB of a virtual page. -/
  | flushTlb (which : TlbId) (vpage : BitVec 20)
deriving DecidableEq, Repr

/-- A destination of the Duplicate Destination check (40_packet_execution.md R115). -/
inductive Dest where
  | reg (r : Reg)
  | pred (n : PredReg)
  | ovf
deriving DecidableEq, Repr

/-- The kinds of data access that 20_memory.md R71 tells apart; a load carries its destination. -/
inductive AccessKind where
  | load (rd : Reg)
  | ll (rd : Reg)
  | store
  | sc
deriving DecidableEq, Repr

/-- A data access: its kind, first physical byte and size. -/
structure Access where
  kind : AccessKind
  pa   : Word
  size : Size
deriving DecidableEq, Repr

/-- An entry that a lane's table walk leaves in a TLB (20_memory.md R58). -/
structure Fill where
  which : TlbId
  entry : TlbEntry
deriving DecidableEq, Repr

/-- What one slot contributes to its packet. -/
structure Lane where
  /-- The exception the slot's own rule raises. -/
  exn : Option Exn := none
  /-- Its destinations (R115). -/
  dests : List Dest := []
  /-- Its pending writes (R114). -/
  writes : List Write := []
  /-- Entries its walks leave in the TLBs. -/
  fills : List Fill := []
  /-- Its data access. -/
  access : Option Access := none
  /-- Set when the spec gives its encoding no meaning (30_encoding.md R104). -/
  refusal : Option Refusal := none
deriving DecidableEq, Repr

/-- A slot that does nothing: an operand slot, or a false predicate (40_packet_execution.md R111, R113). -/
def Lane.idle : Lane := {}

/-- A slot whose encoding is undefined raises IllegalInstruction (30_encoding.md R103). -/
def Lane.illegal : Lane := { exn := some .illegalInstruction }

/-- An instruction in a slot its type may not occupy raises IllegalInstruction and does nothing else
(40_packet_execution.md R112); it still takes part in the Duplicate Destination check (log 25). -/
def Lane.misplaced (l : Lane) : Lane :=
  { exn := some .illegalInstruction, dests := l.dests, refusal := l.refusal }

/-- What a slot with a false predicate contributes (40_packet_execution.md R113): nothing. With DUPDEST_DYNAMIC = false
its destinations still count (R115, D9; log 17). -/
def Lane.unexecuted (l : Lane) (s : State) : Lane := { dests := if s.params.dupDestDynamic then [] else l.dests }

/-- Predication (40_packet_execution.md R113). -/
def Lane.gate (p : Pred) (l : Lane) (s : State) : Lane := if s.holds p then l else l.unexecuted s

/-- Which slots an instruction may occupy (40_packet_execution.md R112). -/
def mayOccupy (i : Instr) (k : Fin 4) : Bool :=
  match i.format.type with
  | .control => decide (k.val = 0)
  | .memory => decide (k.val ≤ 1)
  | .alu => decide (i.format ≠ .aluLong) || decide (k.val ≤ 2)

/-! Lanes of the usual shapes. -/

/-- `x[rd] <- v`. -/
def Lane.setReg (rd : Reg) (v : Word) : Lane := { dests := [.reg rd], writes := [.reg rd v] }

/-- `p[pd] <- b`: a write to P3 is dropped and is no destination (42_compare.md, 40_packet_execution.md R115). -/
def Lane.setPred (pd : PredReg) (b : Bool) : Lane :=
  { dests := if pd = 3 then [] else [.pred pd], writes := [.pred pd b] }

/-- `x[rd] <- v` and `ovf <- o` (45_muldiv.md R190, R191). -/
def Lane.setRegOvf (rd : Reg) (v o : Word) : Lane :=
  { dests := [.reg rd, .ovf], writes := [.reg rd v, .ovf o] }

/-! Data accesses (20_memory.md R57). -/

/-- The exception of a failed data access; it reports the effective address before alignment (60_exceptions.md R237). -/
def dataExn (ea : Word) : MemFault → Exn
  | .pageFault => .dataPageFault ea
  | .invalidPhysical => .invalidPhysicalAddress ea

/-- The fills of an access through one TLB. -/
def fillsOf (which : TlbId) (t : Translation) : List Fill :=
  match t.fill with
  | some e => [{ which := which, entry := e }]
  | none => []

/-- The translation of a load or store by the instruction in slot `k`, with the data TLB (20_memory.md R57, R58). -/
def dataTranslation (s : State) (k : Fin 4) (sz : Size) (ea : Word) (isStore : Bool) : Translation :=
  translateValid s s.dtlb (.lane k) (sz.align ea) isStore

/-- The value a load reads: from RAM what the last store wrote (20_memory.md R66), from the peripheral region a drawn
value of the access width (R49, U29). -/
def loadValue (s : State) (k : Fin 4) (pa : Word) (sz : Size) : Word :=
  if isRam pa then s.mem.readSized pa.toNat sz else sz.truncate (Config.periphLoad s.tick (.lane k))

/-- What a load adds to its packet besides its register (20_memory.md R49). -/
def loadEvents (s : State) (k : Fin 4) (pa : Word) (sz : Size) : List Write :=
  if isRam pa then [] else [.event (.load pa sz (loadValue s k pa sz))]

/-- LB, LH, LW and LL (44_load_store.md R170 to R173): `sets` is true for LL, which sets the link bit. -/
def Lane.load (s : State) (k : Fin 4) (sz : Size) (sets : Bool) (rd : Reg) (ea : Word) : Lane :=
  let t := dataTranslation s k sz ea false
  match t.result with
  | .error f => { exn := some (dataExn ea f), dests := [.reg rd], fills := fillsOf .data t }
  | .ok pa =>
    { dests := [.reg rd]
      writes := .reg rd (loadValue s k pa sz) :: (loadEvents s k pa sz ++ if sets then [.link true] else [])
      fills := fillsOf .data t
      access := some { kind := if sets then .ll rd else .load rd, pa := pa, size := sz } }

/-- SB, SH and SW (44_load_store.md R174 to R176). -/
def Lane.store (s : State) (k : Fin 4) (sz : Size) (m : Bool) (ea v : Word) : Lane :=
  if m then { refusal := some .storeWithMBit }
  else
    let t := dataTranslation s k sz ea true
    match t.result with
    | .error f => { exn := some (dataExn ea f), fills := fillsOf .data t }
    | .ok pa =>
      { writes := [.store pa sz v]
        fills := fillsOf .data t
        access := some { kind := .store, pa := pa, size := sz } }

/-- SC (44_load_store.md R177): translated and checked as a store whatever the link bit, W of its page included (log 26);
stores only if it is set; P0 says whether it did; the link bit is cleared. -/
def Lane.storeConditional (s : State) (k : Fin 4) (m : Bool) (ea v : Word) : Lane :=
  if m then { dests := [.pred 0], refusal := some .storeWithMBit }
  else
    let t := dataTranslation s k .word ea true
    match t.result with
    | .error f => { exn := some (dataExn ea f), dests := [.pred 0], fills := fillsOf .data t }
    | .ok pa =>
      { dests := [.pred 0]
        writes :=
          if s.link then [.store pa .word v, .pred 0 true, .link false] else [.pred 0 false, .link false]
        fills := fillsOf .data t
        access := some { kind := .sc, pa := pa, size := .word } }

/-! Committing. -/

/-- One pending write takes effect. -/
def Write.apply (s : State) : Write → State
  | .reg r v => s.writeReg r v
  | .pred n b => s.writePred n b
  | .ovf v => { s with ovf := v }
  | .cpr c v => s.writeCpr c v
  | .store pa sz v => s.commitStore pa sz v
  | .event e => s.logEvent e
  | .link b => { s with link := b }
  | .pc target => { s with pc := target }
  | .trapReturn => Machine.trapReturn s
  | .flushData pa => s.flushDataLine pa
  | .flushInst pa => s.flushInstLine pa
  | .flushTlb which vpage => s.flushTlbPage which vpage

/-- One walk's entry goes into its TLB. -/
def Fill.apply (s : State) (f : Fill) : State := s.fillTlb f.which f.entry

/-- Every walk's entry goes into its TLB; nothing else changes. -/
def applyFills (fs : List Fill) (s : State) : State :=
  { s with dtlb := (fs.foldl Fill.apply s).dtlb, itlb := (fs.foldl Fill.apply s).itlb }

/-- An LL's set beside an ERET's clear of the link bit: no rule orders the two, and the bit is a free value (log 21). -/
def linkClash (ws : List Write) : Bool := ws.contains (.link true) && ws.contains .trapReturn

/-- Commit (40_packet_execution.md R114, R116, R118 step 8): pc moves to the next packet, then every pending write takes
effect, a branch or ERET overriding pc. -/
def commit (ws : List Write) (s : State) : State :=
  let t := ws.foldl Write.apply { s with pc := s.pc + 16#32 }
  if linkClash ws then { t with link := Config.linkDraw s.tick } else t

/-! The end of a packet. -/

/-- Exceptions that are reported before DuplicateDestination (60_exceptions.md R233). -/
def Exn.beforeDuplicate : Exn → Bool
  | .illegalInstruction => true
  | .insufficientPermissions => true
  | .syscall => true
  | .brk => true
  | .duplicateDestination => true
  | .dataPageFault _ => false
  | .invalidPhysicalAddress _ => false
  | .divideByZero => false

/-- The one code a lane reports (60_exceptions.md R233), given whether one of its destinations is another lane's too. -/
def reported (own : Option Exn) (duplicate : Bool) : Option Exn :=
  match own with
  | some e => if e.beforeDuplicate then some e else if duplicate then some .duplicateDestination else some e
  | none => if duplicate then some .duplicateDestination else none

/-- One of a lane's destinations is among those of the others (40_packet_execution.md R115). -/
def collides (mine others : List Dest) : Bool := mine.any (fun d => others.contains d)

/-- The byte ranges of two accesses overlap. -/
def Access.overlaps (a b : Access) : Bool :=
  decide (a.pa.toNat < b.pa.toNat + b.size.bytes) && decide (b.pa.toNat < a.pa.toNat + a.size.bytes)

/-- A store, conditional or not. -/
def AccessKind.isStore : AccessKind → Bool
  | .load _ => false
  | .ll _ => false
  | .store => true
  | .sc => true

/-- LL. -/
def AccessKind.isLl : AccessKind → Bool
  | .load _ => false
  | .ll _ => true
  | .store => false
  | .sc => false

/-- Two accesses of one packet whose outcome 20_memory.md R71 leaves undefined: they overlap and one is a store, or one
is LL and the other SC, or one is SC and the other any store. -/
def Access.conflicts (a b : Access) : Bool :=
  (a.overlaps b && (a.kind.isStore || b.kind.isStore))
    || (a.kind.isLl && decide (b.kind = .sc))
    || (decide (a.kind = .sc) && b.kind.isLl)
    || (decide (a.kind = .sc) && b.kind.isStore)
    || (a.kind.isStore && decide (b.kind = .sc))

/-- The accesses of slots 0 and 1 conflict (20_memory.md R71). -/
def accessConflict (a b : Option Access) : Bool :=
  match a, b with
  | some x, some y => x.conflicts y
  | _, _ => false

/-! MEM_LANE_ORDER (00_scope.md R5, 20_memory.md R71). -/

/-- RAM after the stores among some pending writes. -/
def storesInto (m : Memory) (ws : List Write) : Memory :=
  ws.foldl (fun m w =>
    match w with
    | .store pa sz v => if isRam pa then m.writeSized pa.toNat sz v else m
    | _ => m) m

/-- The pending writes of a memory slot that performs its access after the other memory slot, whose pending writes are
`first`: a load reads RAM after the other's store (log 36). -/
def Lane.writesAfter (first : List Write) (l : Lane) (k : Fin 4) (s : State) : List Write :=
  match l.access with
  | some ⟨.load rd, pa, sz⟩ => .reg rd (loadValue { s with mem := storesInto s.mem first } k pa sz) :: l.writes.drop 1
  | some ⟨.ll rd, pa, sz⟩ => .reg rd (loadValue { s with mem := storesInto s.mem first } k pa sz) :: l.writes.drop 1
  | some ⟨.store, _, _⟩ => l.writes
  | some ⟨.sc, _, _⟩ => l.writes
  | none => l.writes

/-- The pending writes of slots 0 and 1, in the order in which they take effect; none where they hold two memory
instructions that conflict and MEM_LANE_ORDER has no value (20_memory.md R71). -/
def memoryWrites (l0 l1 : Lane) (s : State) : Option (List Write) :=
  match s.params.memLaneOrder with
  | none => if accessConflict l0.access l1.access then none else some (l0.writes ++ l1.writes)
  | some .slot0First => some (l0.writes ++ l1.writesAfter l0.writes 1 s)
  | some .slot1First =>
    if l0.access.isSome && l1.access.isSome then some (l1.writes ++ l0.writesAfter l1.writes 0 s)
    else some (l0.writes ++ l1.writes)

/-- The first refusal among the lanes. -/
def firstRefusal (l0 l1 l2 l3 : Lane) : Option Refusal :=
  l0.refusal.or (l1.refusal.or (l2.refusal.or l3.refusal))

/-- The end of a packet whose slots contribute l0 to l3, all computed from `s` (40_packet_execution.md R115 to R118):
a slot without a meaning refuses the packet (log 20); else an exception on any lane takes the one trap, with every lane's
code (log 19); else conflicting memory slots refuse it (log 18); else everything commits. Entries that walks left in the
TLBs stay either way (log 7, log 22). -/
def finishPacket (l0 l1 l2 l3 : Lane) (s : State) : Host.Outcome State Fault Refusal :=
  match firstRefusal l0 l1 l2 l3 with
  | some r => .refused r
  | none =>
    let e0 := reported l0.exn (collides l0.dests (l1.dests ++ l2.dests ++ l3.dests))
    let e1 := reported l1.exn (collides l1.dests (l0.dests ++ l2.dests ++ l3.dests))
    let e2 := reported l2.exn (collides l2.dests (l0.dests ++ l1.dests ++ l3.dests))
    let e3 := reported l3.exn (collides l3.dests (l0.dests ++ l1.dests ++ l2.dests))
    let s1 := applyFills (l0.fills ++ l1.fills ++ l2.fills ++ l3.fills) s
    if e0.isSome || e1.isSome || e2.isSome || e3.isSome then .next (trapLanes e0 e1 e2 e3 s1)
    else
      match memoryWrites l0 l1 s with
      | none => .refused .memorySlotsConflict
      | some ws => .next (commit (ws ++ l2.writes ++ l3.writes) s1)

/-- An instruction whose lane is `l`, predicated on `p`, alone in its packet in slot 0: the other slots are idle. -/
def execAlone (p : Pred) (l : Lane) (s : State) : Host.Outcome State Fault Refusal :=
  finishPacket (l.gate p s) Lane.idle Lane.idle Lane.idle s

end Sys2Proof.Machine
end

