-- ==== Sys2Proof/Machine/Alu.lean ====
section
/-! DEFINITION. The eleven ALU instructions in their 37 forms (41_alu.md R130 to R140). Each writes RD and nothing else;
none raises an exception of its own. -/

namespace Sys2Proof.Machine

/-- ADD modulo 2^32 (41_alu.md R130). -/
def aluAdd (a b : Word) : Word := a + b
/-- AND (41_alu.md R131). -/
def aluAnd (a b : Word) : Word := a &&& b
/-- NOR (41_alu.md R132). -/
def aluNor (a b : Word) : Word := ~~~(a ||| b)
/-- OR (41_alu.md R133). -/
def aluOr (a b : Word) : Word := a ||| b
/-- SUB modulo 2^32 (41_alu.md R134). -/
def aluSub (a b : Word) : Word := a - b
/-- RSB modulo 2^32 (41_alu.md R135). -/
def aluRsb (a b : Word) : Word := b - a
/-- XOR (41_alu.md R136). -/
def aluXor (a b : Word) : Word := a ^^^ b
/-- MOV (41_alu.md R137). -/
def aluMov (b : Word) : Word := b
/-- MVN (41_alu.md R138). -/
def aluMvn (b : Word) : Word := ~~~b
/-- SXB: the low byte, sign-extended (41_alu.md R139). -/
def aluSxb (b : Word) : Word := (b.extractLsb' 0 8).signExtend 32
/-- SXH: the low half-word, sign-extended (41_alu.md R140). -/
def aluSxh (b : Word) : Word := (b.extractLsb' 0 16).signExtend 32

/-- The lane of ADD (R130): Rd <- Rs + Imm, short immediate. -/
def laneAddShort (c : BitVec 10) (rot : BitVec 4) (rd rs : Reg) (s : State) : Lane :=
  Lane.setReg rd (aluAdd (s.readReg rs) (shortImm10 c rot))

/-- ADD (R130), alone in slot 0. -/
def execAddShort (p : Pred) (c : BitVec 10) (rot : BitVec 4) (rd rs : Reg) (s : State) : Host.Outcome State Fault Refusal :=
  execAlone p (laneAddShort c rot rd rs s) s

/-- The lane of ADD (R130): Rd <- Rs + (Rt SHF Imm). -/
def laneAddReg (amt : BitVec 5) (shf : Shf) (rt rd rs : Reg) (s : State) : Lane :=
  Lane.setReg rd (aluAdd (s.readReg rs) (shiftConst shf amt (s.readReg rt)))

/-- ADD (R130), alone in slot 0. -/
def execAddReg (p : Pred) (amt : BitVec 5) (shf : Shf) (rt rd rs : Reg) (s : State) : Host.Outcome State Fault Refusal :=
  execAlone p (laneAddReg amt shf rt rd rs s) s

/-- The lane of ADD (R130): Rd <- Rs + Imm, long immediate. -/
def laneAddLong (rd rs : Reg) (imm : Word) (s : State) : Lane :=
  Lane.setReg rd (aluAdd (s.readReg rs) imm)

/-- ADD (R130), alone in slot 0. -/
def execAddLong (p : Pred) (rd rs : Reg) (imm : Word) (s : State) : Host.Outcome State Fault Refusal :=
  execAlone p (laneAddLong rd rs imm s) s

/-- The lane of AND (R131): Rd <- Rs & Imm, short immediate. -/
def laneAndShort (c : BitVec 10) (rot : BitVec 4) (rd rs : Reg) (s : State) : Lane :=
  Lane.setReg rd (aluAnd (s.readReg rs) (shortImm10 c rot))

/-- AND (R131), alone in slot 0. -/
def execAndShort (p : Pred) (c : BitVec 10) (rot : BitVec 4) (rd rs : Reg) (s : State) : Host.Outcome State Fault Refusal :=
  execAlone p (laneAndShort c rot rd rs s) s

/-- The lane of AND (R131): Rd <- Rs & (Rt SHF Imm). -/
def laneAndReg (amt : BitVec 5) (shf : Shf) (rt rd rs : Reg) (s : State) : Lane :=
  Lane.setReg rd (aluAnd (s.readReg rs) (shiftConst shf amt (s.readReg rt)))

/-- AND (R131), alone in slot 0. -/
def execAndReg (p : Pred) (amt : BitVec 5) (shf : Shf) (rt rd rs : Reg) (s : State) : Host.Outcome State Fault Refusal :=
  execAlone p (laneAndReg amt shf rt rd rs s) s

/-- The lane of AND (R131): Rd <- Rs & Imm, long immediate. -/
def laneAndLong (rd rs : Reg) (imm : Word) (s : State) : Lane :=
  Lane.setReg rd (aluAnd (s.readReg rs) imm)

/-- AND (R131), alone in slot 0. -/
def execAndLong (p : Pred) (rd rs : Reg) (imm : Word) (s : State) : Host.Outcome State Fault Refusal :=
  execAlone p (laneAndLong rd rs imm s) s

/-- The lane of NOR (R132): Rd <- Rs NOR Imm, short immediate. -/
def laneNorShort (c : BitVec 10) (rot : BitVec 4) (rd rs : Reg) (s : State) : Lane :=
  Lane.setReg rd (aluNor (s.readReg rs) (shortImm10 c rot))

/-- NOR (R132), alone in slot 0. -/
def execNorShort (p : Pred) (c : BitVec 10) (rot : BitVec 4) (rd rs : Reg) (s : State) : Host.Outcome State Fault Refusal :=
  execAlone p (laneNorShort c rot rd rs s) s

/-- The lane of NOR (R132): Rd <- Rs NOR (Rt SHF Imm). -/
def laneNorReg (amt : BitVec 5) (shf : Shf) (rt rd rs : Reg) (s : State) : Lane :=
  Lane.setReg rd (aluNor (s.readReg rs) (shiftConst shf amt (s.readReg rt)))

/-- NOR (R132), alone in slot 0. -/
def execNorReg (p : Pred) (amt : BitVec 5) (shf : Shf) (rt rd rs : Reg) (s : State) : Host.Outcome State Fault Refusal :=
  execAlone p (laneNorReg amt shf rt rd rs s) s

/-- The lane of NOR (R132): Rd <- Rs NOR Imm, long immediate. -/
def laneNorLong (rd rs : Reg) (imm : Word) (s : State) : Lane :=
  Lane.setReg rd (aluNor (s.readReg rs) imm)

/-- NOR (R132), alone in slot 0. -/
def execNorLong (p : Pred) (rd rs : Reg) (imm : Word) (s : State) : Host.Outcome State Fault Refusal :=
  execAlone p (laneNorLong rd rs imm s) s

/-- The lane of OR (R133): Rd <- Rs | Imm, short immediate. -/
def laneOrShort (c : BitVec 10) (rot : BitVec 4) (rd rs : Reg) (s : State) : Lane :=
  Lane.setReg rd (aluOr (s.readReg rs) (shortImm10 c rot))

/-- OR (R133), alone in slot 0. -/
def execOrShort (p : Pred) (c : BitVec 10) (rot : BitVec 4) (rd rs : Reg) (s : State) : Host.Outcome State Fault Refusal :=
  execAlone p (laneOrShort c rot rd rs s) s

/-- The lane of OR (R133): Rd <- Rs | (Rt SHF Imm). -/
def laneOrReg (amt : BitVec 5) (shf : Shf) (rt rd rs : Reg) (s : State) : Lane :=
  Lane.setReg rd (aluOr (s.readReg rs) (shiftConst shf amt (s.readReg rt)))

/-- OR (R133), alone in slot 0. -/
def execOrReg (p : Pred) (amt : BitVec 5) (shf : Shf) (rt rd rs : Reg) (s : State) : Host.Outcome State Fault Refusal :=
  execAlone p (laneOrReg amt shf rt rd rs s) s

/-- The lane of OR (R133): Rd <- Rs | Imm, long immediate. -/
def laneOrLong (rd rs : Reg) (imm : Word) (s : State) : Lane :=
  Lane.setReg rd (aluOr (s.readReg rs) imm)

/-- OR (R133), alone in slot 0. -/
def execOrLong (p : Pred) (rd rs : Reg) (imm : Word) (s : State) : Host.Outcome State Fault Refusal :=
  execAlone p (laneOrLong rd rs imm s) s

/-- The lane of SUB (R134): Rd <- Rs - Imm, short immediate. -/
def laneSubShort (c : BitVec 10) (rot : BitVec 4) (rd rs : Reg) (s : State) : Lane :=
  Lane.setReg rd (aluSub (s.readReg rs) (shortImm10 c rot))

/-- SUB (R134), alone in slot 0. -/
def execSubShort (p : Pred) (c : BitVec 10) (rot : BitVec 4) (rd rs : Reg) (s : State) : Host.Outcome State Fault Refusal :=
  execAlone p (laneSubShort c rot rd rs s) s

/-- The lane of SUB (R134): Rd <- Rs - (Rt SHF Imm). -/
def laneSubReg (amt : BitVec 5) (shf : Shf) (rt rd rs : Reg) (s : State) : Lane :=
  Lane.setReg rd (aluSub (s.readReg rs) (shiftConst shf amt (s.readReg rt)))

/-- SUB (R134), alone in slot 0. -/
def execSubReg (p : Pred) (amt : BitVec 5) (shf : Shf) (rt rd rs : Reg) (s : State) : Host.Outcome State Fault Refusal :=
  execAlone p (laneSubReg amt shf rt rd rs s) s

/-- The lane of SUB (R134): Rd <- Rs - Imm, long immediate. -/
def laneSubLong (rd rs : Reg) (imm : Word) (s : State) : Lane :=
  Lane.setReg rd (aluSub (s.readReg rs) imm)

/-- SUB (R134), alone in slot 0. -/
def execSubLong (p : Pred) (rd rs : Reg) (imm : Word) (s : State) : Host.Outcome State Fault Refusal :=
  execAlone p (laneSubLong rd rs imm s) s

/-- The lane of RSB (R135): Rd <- Rs RSB Imm, short immediate. -/
def laneRsbShort (c : BitVec 10) (rot : BitVec 4) (rd rs : Reg) (s : State) : Lane :=
  Lane.setReg rd (aluRsb (s.readReg rs) (shortImm10 c rot))

/-- RSB (R135), alone in slot 0. -/
def execRsbShort (p : Pred) (c : BitVec 10) (rot : BitVec 4) (rd rs : Reg) (s : State) : Host.Outcome State Fault Refusal :=
  execAlone p (laneRsbShort c rot rd rs s) s

/-- The lane of RSB (R135): Rd <- Rs RSB (Rt SHF Imm). -/
def laneRsbReg (amt : BitVec 5) (shf : Shf) (rt rd rs : Reg) (s : State) : Lane :=
  Lane.setReg rd (aluRsb (s.readReg rs) (shiftConst shf amt (s.readReg rt)))

/-- RSB (R135), alone in slot 0. -/
def execRsbReg (p : Pred) (amt : BitVec 5) (shf : Shf) (rt rd rs : Reg) (s : State) : Host.Outcome State Fault Refusal :=
  execAlone p (laneRsbReg amt shf rt rd rs s) s

/-- The lane of RSB (R135): Rd <- Rs RSB Imm, long immediate. -/
def laneRsbLong (rd rs : Reg) (imm : Word) (s : State) : Lane :=
  Lane.setReg rd (aluRsb (s.readReg rs) imm)

/-- RSB (R135), alone in slot 0. -/
def execRsbLong (p : Pred) (rd rs : Reg) (imm : Word) (s : State) : Host.Outcome State Fault Refusal :=
  execAlone p (laneRsbLong rd rs imm s) s

/-- The lane of XOR (R136): Rd <- Rs ^ Imm, short immediate. -/
def laneXorShort (c : BitVec 10) (rot : BitVec 4) (rd rs : Reg) (s : State) : Lane :=
  Lane.setReg rd (aluXor (s.readReg rs) (shortImm10 c rot))

/-- XOR (R136), alone in slot 0. -/
def execXorShort (p : Pred) (c : BitVec 10) (rot : BitVec 4) (rd rs : Reg) (s : State) : Host.Outcome State Fault Refusal :=
  execAlone p (laneXorShort c rot rd rs s) s

/-- The lane of XOR (R136): Rd <- Rs ^ (Rt SHF Imm). -/
def laneXorReg (amt : BitVec 5) (shf : Shf) (rt rd rs : Reg) (s : State) : Lane :=
  Lane.setReg rd (aluXor (s.readReg rs) (shiftConst shf amt (s.readReg rt)))

/-- XOR (R136), alone in slot 0. -/
def execXorReg (p : Pred) (amt : BitVec 5) (shf : Shf) (rt rd rs : Reg) (s : State) : Host.Outcome State Fault Refusal :=
  execAlone p (laneXorReg amt shf rt rd rs s) s

/-- The lane of XOR (R136): Rd <- Rs ^ Imm, long immediate. -/
def laneXorLong (rd rs : Reg) (imm : Word) (s : State) : Lane :=
  Lane.setReg rd (aluXor (s.readReg rs) imm)

/-- XOR (R136), alone in slot 0. -/
def execXorLong (p : Pred) (rd rs : Reg) (imm : Word) (s : State) : Host.Outcome State Fault Refusal :=
  execAlone p (laneXorLong rd rs imm s) s

/-- The lane of MOV (R137): Rd <- Imm, short immediate. -/
def laneMovShort (lo : BitVec 10) (rot : BitVec 4) (rd : Reg) (hi : BitVec 5) : Lane :=
  Lane.setReg rd (aluMov (shortImm15 hi lo rot))

/-- MOV (R137), alone in slot 0. -/
def execMovShort (p : Pred) (lo : BitVec 10) (rot : BitVec 4) (rd : Reg) (hi : BitVec 5) (s : State) : Host.Outcome State Fault Refusal :=
  execAlone p (laneMovShort lo rot rd hi) s

/-- The lane of MOV (R137): Rd <- (Rt SHF Imm). -/
def laneMovReg (amt : BitVec 5) (shf : Shf) (rt rd : Reg) (s : State) : Lane :=
  Lane.setReg rd (aluMov (shiftConst shf amt (s.readReg rt)))

/-- MOV (R137), alone in slot 0. -/
def execMovReg (p : Pred) (amt : BitVec 5) (shf : Shf) (rt rd : Reg) (s : State) : Host.Outcome State Fault Refusal :=
  execAlone p (laneMovReg amt shf rt rd s) s

/-- The lane of MOV (R137): Rd <- (Rt SHF Rs). -/
def laneMovRegsh (shf : Shf) (rt rd rs : Reg) (s : State) : Lane :=
  Lane.setReg rd (aluMov (shiftReg shf (s.readReg rs) (s.readReg rt)))

/-- MOV (R137), alone in slot 0. -/
def execMovRegsh (p : Pred) (shf : Shf) (rt rd rs : Reg) (s : State) : Host.Outcome State Fault Refusal :=
  execAlone p (laneMovRegsh shf rt rd rs s) s

/-- The lane of MOV (R137): Rd <- Imm, long immediate. -/
def laneMovLong (rd : Reg) (imm : Word) : Lane :=
  Lane.setReg rd (aluMov imm)

/-- MOV (R137), alone in slot 0. -/
def execMovLong (p : Pred) (rd : Reg) (imm : Word) (s : State) : Host.Outcome State Fault Refusal :=
  execAlone p (laneMovLong rd imm) s

/-- The lane of MVN (R138): Rd <- ~Imm, short immediate. -/
def laneMvnShort (lo : BitVec 10) (rot : BitVec 4) (rd : Reg) (hi : BitVec 5) : Lane :=
  Lane.setReg rd (aluMvn (shortImm15 hi lo rot))

/-- MVN (R138), alone in slot 0. -/
def execMvnShort (p : Pred) (lo : BitVec 10) (rot : BitVec 4) (rd : Reg) (hi : BitVec 5) (s : State) : Host.Outcome State Fault Refusal :=
  execAlone p (laneMvnShort lo rot rd hi) s

/-- The lane of MVN (R138): Rd <- ~(Rt SHF Imm). -/
def laneMvnReg (amt : BitVec 5) (shf : Shf) (rt rd : Reg) (s : State) : Lane :=
  Lane.setReg rd (aluMvn (shiftConst shf amt (s.readReg rt)))

/-- MVN (R138), alone in slot 0. -/
def execMvnReg (p : Pred) (amt : BitVec 5) (shf : Shf) (rt rd : Reg) (s : State) : Host.Outcome State Fault Refusal :=
  execAlone p (laneMvnReg amt shf rt rd s) s

/-- The lane of MVN (R138): Rd <- ~(Rt SHF Rs). -/
def laneMvnRegsh (shf : Shf) (rt rd rs : Reg) (s : State) : Lane :=
  Lane.setReg rd (aluMvn (shiftReg shf (s.readReg rs) (s.readReg rt)))

/-- MVN (R138), alone in slot 0. -/
def execMvnRegsh (p : Pred) (shf : Shf) (rt rd rs : Reg) (s : State) : Host.Outcome State Fault Refusal :=
  execAlone p (laneMvnRegsh shf rt rd rs s) s

/-- The lane of MVN (R138): Rd <- ~Imm, long immediate. -/
def laneMvnLong (rd : Reg) (imm : Word) : Lane :=
  Lane.setReg rd (aluMvn imm)

/-- MVN (R138), alone in slot 0. -/
def execMvnLong (p : Pred) (rd : Reg) (imm : Word) (s : State) : Host.Outcome State Fault Refusal :=
  execAlone p (laneMvnLong rd imm) s

/-- The lane of SXB (R139): Rd <- SXB Imm, short immediate. -/
def laneSxbShort (lo : BitVec 10) (rot : BitVec 4) (rd : Reg) (hi : BitVec 5) : Lane :=
  Lane.setReg rd (aluSxb (shortImm15 hi lo rot))

/-- SXB (R139), alone in slot 0. -/
def execSxbShort (p : Pred) (lo : BitVec 10) (rot : BitVec 4) (rd : Reg) (hi : BitVec 5) (s : State) : Host.Outcome State Fault Refusal :=
  execAlone p (laneSxbShort lo rot rd hi) s

/-- The lane of SXB (R139): Rd <- SXB (Rt SHF Imm). -/
def laneSxbReg (amt : BitVec 5) (shf : Shf) (rt rd : Reg) (s : State) : Lane :=
  Lane.setReg rd (aluSxb (shiftConst shf amt (s.readReg rt)))

/-- SXB (R139), alone in slot 0. -/
def execSxbReg (p : Pred) (amt : BitVec 5) (shf : Shf) (rt rd : Reg) (s : State) : Host.Outcome State Fault Refusal :=
  execAlone p (laneSxbReg amt shf rt rd s) s

/-- The lane of SXB (R139): Rd <- SXB (Rt SHF Rs). -/
def laneSxbRegsh (shf : Shf) (rt rd rs : Reg) (s : State) : Lane :=
  Lane.setReg rd (aluSxb (shiftReg shf (s.readReg rs) (s.readReg rt)))

/-- SXB (R139), alone in slot 0. -/
def execSxbRegsh (p : Pred) (shf : Shf) (rt rd rs : Reg) (s : State) : Host.Outcome State Fault Refusal :=
  execAlone p (laneSxbRegsh shf rt rd rs s) s

/-- The lane of SXB (R139): Rd <- SXB Imm, long immediate. -/
def laneSxbLong (rd : Reg) (imm : Word) : Lane :=
  Lane.setReg rd (aluSxb imm)

/-- SXB (R139), alone in slot 0. -/
def execSxbLong (p : Pred) (rd : Reg) (imm : Word) (s : State) : Host.Outcome State Fault Refusal :=
  execAlone p (laneSxbLong rd imm) s

/-- The lane of SXH (R140): Rd <- SXH Imm, short immediate. -/
def laneSxhShort (lo : BitVec 10) (rot : BitVec 4) (rd : Reg) (hi : BitVec 5) : Lane :=
  Lane.setReg rd (aluSxh (shortImm15 hi lo rot))

/-- SXH (R140), alone in slot 0. -/
def execSxhShort (p : Pred) (lo : BitVec 10) (rot : BitVec 4) (rd : Reg) (hi : BitVec 5) (s : State) : Host.Outcome State Fault Refusal :=
  execAlone p (laneSxhShort lo rot rd hi) s

/-- The lane of SXH (R140): Rd <- SXH (Rt SHF Imm). -/
def laneSxhReg (amt : BitVec 5) (shf : Shf) (rt rd : Reg) (s : State) : Lane :=
  Lane.setReg rd (aluSxh (shiftConst shf amt (s.readReg rt)))

/-- SXH (R140), alone in slot 0. -/
def execSxhReg (p : Pred) (amt : BitVec 5) (shf : Shf) (rt rd : Reg) (s : State) : Host.Outcome State Fault Refusal :=
  execAlone p (laneSxhReg amt shf rt rd s) s

/-- The lane of SXH (R140): Rd <- SXH (Rt SHF Rs). -/
def laneSxhRegsh (shf : Shf) (rt rd rs : Reg) (s : State) : Lane :=
  Lane.setReg rd (aluSxh (shiftReg shf (s.readReg rs) (s.readReg rt)))

/-- SXH (R140), alone in slot 0. -/
def execSxhRegsh (p : Pred) (shf : Shf) (rt rd rs : Reg) (s : State) : Host.Outcome State Fault Refusal :=
  execAlone p (laneSxhRegsh shf rt rd rs s) s

/-- The lane of SXH (R140): Rd <- SXH Imm, long immediate. -/
def laneSxhLong (rd : Reg) (imm : Word) : Lane :=
  Lane.setReg rd (aluSxh imm)

/-- SXH (R140), alone in slot 0. -/
def execSxhLong (p : Pred) (rd : Reg) (imm : Word) (s : State) : Host.Outcome State Fault Refusal :=
  execAlone p (laneSxhLong rd imm) s

end Sys2Proof.Machine
end

