-- ==== Sys2Proof/Machine/Branch.lean ====
section
/-! DEFINITION. B and BL in two forms each (43_branch.md R160, R161). A branch raises no exception of its own. -/

namespace Sys2Proof.Machine

/-- A branch without link (43_branch.md R160). -/
def Lane.branch (target : Word) : Lane := { writes := [.pc target] }

/-- A branch with link: R31 gets the address of the BL's own packet (43_branch.md R161). -/
def Lane.branchLink (s : State) (target : Word) : Lane :=
  { dests := [.reg 31], writes := [.reg 31 s.pc, .pc target] }

/-- The lane of B (R160): B label. -/
def laneBImm (off : BitVec 25) (s : State) : Lane :=
  Lane.branch (branchImmTarget s.pc off)

/-- B (R160), alone in slot 0. -/
def execBImm (p : Pred) (off : BitVec 25) (s : State) : Host.Outcome State Fault Refusal :=
  execAlone p (laneBImm off s) s

/-- The lane of B (R160): B Rs + OFF. -/
def laneBReg (off : BitVec 20) (rs : Reg) (s : State) : Lane :=
  Lane.branch (branchRegTarget (s.readReg rs) off)

/-- B (R160), alone in slot 0. -/
def execBReg (p : Pred) (off : BitVec 20) (rs : Reg) (s : State) : Host.Outcome State Fault Refusal :=
  execAlone p (laneBReg off rs s) s

/-- The lane of BL (R161): BL label. -/
def laneBlImm (off : BitVec 25) (s : State) : Lane :=
  Lane.branchLink s (branchImmTarget s.pc off)

/-- BL (R161), alone in slot 0. -/
def execBlImm (p : Pred) (off : BitVec 25) (s : State) : Host.Outcome State Fault Refusal :=
  execAlone p (laneBlImm off s) s

/-- The lane of BL (R161): BL Rs + OFF. -/
def laneBlReg (off : BitVec 20) (rs : Reg) (s : State) : Lane :=
  Lane.branchLink s (branchRegTarget (s.readReg rs) off)

/-- BL (R161), alone in slot 0. -/
def execBlReg (p : Pred) (off : BitVec 20) (rs : Reg) (s : State) : Host.Outcome State Fault Refusal :=
  execAlone p (laneBlReg off rs s) s

end Sys2Proof.Machine
end

