-- ==== Sys2Proof/Machine/Compare.lean ====
section
/-! DEFINITION. The seven compares in their 21 forms (42_compare.md R150 to R156). Each writes the predicate PD, or
nothing when PD = 3, and raises no exception of its own. -/

namespace Sys2Proof.Machine

/-- The lane of CMPLTU (R150): Pd <- Rs LTU Imm, short immediate. -/
def laneCmpltuShort (c : BitVec 10) (rot : BitVec 4) (pd : PredReg) (rs : Reg) (s : State) : Lane :=
  Lane.setPred pd (condLtu (s.readReg rs) (shortImm10 c rot))

/-- CMPLTU (R150), alone in slot 0. -/
def execCmpltuShort (p : Pred) (c : BitVec 10) (rot : BitVec 4) (pd : PredReg) (rs : Reg) (s : State) : Host.Outcome State Fault Refusal :=
  execAlone p (laneCmpltuShort c rot pd rs s) s

/-- The lane of CMPLTU (R150): Pd <- Rs LTU (Rt SHF Imm). -/
def laneCmpltuReg (amt : BitVec 5) (shf : Shf) (rt : Reg) (pd : PredReg) (rs : Reg) (s : State) : Lane :=
  Lane.setPred pd (condLtu (s.readReg rs) (shiftConst shf amt (s.readReg rt)))

/-- CMPLTU (R150), alone in slot 0. -/
def execCmpltuReg (p : Pred) (amt : BitVec 5) (shf : Shf) (rt : Reg) (pd : PredReg) (rs : Reg) (s : State) : Host.Outcome State Fault Refusal :=
  execAlone p (laneCmpltuReg amt shf rt pd rs s) s

/-- The lane of CMPLTU (R150): Pd <- Rs LTU Imm, long immediate. -/
def laneCmpltuLong (pd : PredReg) (rs : Reg) (imm : Word) (s : State) : Lane :=
  Lane.setPred pd (condLtu (s.readReg rs) imm)

/-- CMPLTU (R150), alone in slot 0. -/
def execCmpltuLong (p : Pred) (pd : PredReg) (rs : Reg) (imm : Word) (s : State) : Host.Outcome State Fault Refusal :=
  execAlone p (laneCmpltuLong pd rs imm s) s

/-- The lane of CMPLEU (R151): Pd <- Rs LEU Imm, short immediate. -/
def laneCmpleuShort (c : BitVec 10) (rot : BitVec 4) (pd : PredReg) (rs : Reg) (s : State) : Lane :=
  Lane.setPred pd (condLeu (s.readReg rs) (shortImm10 c rot))

/-- CMPLEU (R151), alone in slot 0. -/
def execCmpleuShort (p : Pred) (c : BitVec 10) (rot : BitVec 4) (pd : PredReg) (rs : Reg) (s : State) : Host.Outcome State Fault Refusal :=
  execAlone p (laneCmpleuShort c rot pd rs s) s

/-- The lane of CMPLEU (R151): Pd <- Rs LEU (Rt SHF Imm). -/
def laneCmpleuReg (amt : BitVec 5) (shf : Shf) (rt : Reg) (pd : PredReg) (rs : Reg) (s : State) : Lane :=
  Lane.setPred pd (condLeu (s.readReg rs) (shiftConst shf amt (s.readReg rt)))

/-- CMPLEU (R151), alone in slot 0. -/
def execCmpleuReg (p : Pred) (amt : BitVec 5) (shf : Shf) (rt : Reg) (pd : PredReg) (rs : Reg) (s : State) : Host.Outcome State Fault Refusal :=
  execAlone p (laneCmpleuReg amt shf rt pd rs s) s

/-- The lane of CMPLEU (R151): Pd <- Rs LEU Imm, long immediate. -/
def laneCmpleuLong (pd : PredReg) (rs : Reg) (imm : Word) (s : State) : Lane :=
  Lane.setPred pd (condLeu (s.readReg rs) imm)

/-- CMPLEU (R151), alone in slot 0. -/
def execCmpleuLong (p : Pred) (pd : PredReg) (rs : Reg) (imm : Word) (s : State) : Host.Outcome State Fault Refusal :=
  execAlone p (laneCmpleuLong pd rs imm s) s

/-- The lane of CMPEQ (R152): Pd <- Rs == Imm, short immediate. -/
def laneCmpeqShort (c : BitVec 10) (rot : BitVec 4) (pd : PredReg) (rs : Reg) (s : State) : Lane :=
  Lane.setPred pd (condEq (s.readReg rs) (shortImm10 c rot))

/-- CMPEQ (R152), alone in slot 0. -/
def execCmpeqShort (p : Pred) (c : BitVec 10) (rot : BitVec 4) (pd : PredReg) (rs : Reg) (s : State) : Host.Outcome State Fault Refusal :=
  execAlone p (laneCmpeqShort c rot pd rs s) s

/-- The lane of CMPEQ (R152): Pd <- Rs == (Rt SHF Imm). -/
def laneCmpeqReg (amt : BitVec 5) (shf : Shf) (rt : Reg) (pd : PredReg) (rs : Reg) (s : State) : Lane :=
  Lane.setPred pd (condEq (s.readReg rs) (shiftConst shf amt (s.readReg rt)))

/-- CMPEQ (R152), alone in slot 0. -/
def execCmpeqReg (p : Pred) (amt : BitVec 5) (shf : Shf) (rt : Reg) (pd : PredReg) (rs : Reg) (s : State) : Host.Outcome State Fault Refusal :=
  execAlone p (laneCmpeqReg amt shf rt pd rs s) s

/-- The lane of CMPEQ (R152): Pd <- Rs == Imm, long immediate. -/
def laneCmpeqLong (pd : PredReg) (rs : Reg) (imm : Word) (s : State) : Lane :=
  Lane.setPred pd (condEq (s.readReg rs) imm)

/-- CMPEQ (R152), alone in slot 0. -/
def execCmpeqLong (p : Pred) (pd : PredReg) (rs : Reg) (imm : Word) (s : State) : Host.Outcome State Fault Refusal :=
  execAlone p (laneCmpeqLong pd rs imm s) s

/-- The lane of CMPLTS (R153): Pd <- Rs LTS Imm, short immediate. -/
def laneCmpltsShort (c : BitVec 10) (rot : BitVec 4) (pd : PredReg) (rs : Reg) (s : State) : Lane :=
  Lane.setPred pd (condLts (s.readReg rs) (shortImm10 c rot))

/-- CMPLTS (R153), alone in slot 0. -/
def execCmpltsShort (p : Pred) (c : BitVec 10) (rot : BitVec 4) (pd : PredReg) (rs : Reg) (s : State) : Host.Outcome State Fault Refusal :=
  execAlone p (laneCmpltsShort c rot pd rs s) s

/-- The lane of CMPLTS (R153): Pd <- Rs LTS (Rt SHF Imm). -/
def laneCmpltsReg (amt : BitVec 5) (shf : Shf) (rt : Reg) (pd : PredReg) (rs : Reg) (s : State) : Lane :=
  Lane.setPred pd (condLts (s.readReg rs) (shiftConst shf amt (s.readReg rt)))

/-- CMPLTS (R153), alone in slot 0. -/
def execCmpltsReg (p : Pred) (amt : BitVec 5) (shf : Shf) (rt : Reg) (pd : PredReg) (rs : Reg) (s : State) : Host.Outcome State Fault Refusal :=
  execAlone p (laneCmpltsReg amt shf rt pd rs s) s

/-- The lane of CMPLTS (R153): Pd <- Rs LTS Imm, long immediate. -/
def laneCmpltsLong (pd : PredReg) (rs : Reg) (imm : Word) (s : State) : Lane :=
  Lane.setPred pd (condLts (s.readReg rs) imm)

/-- CMPLTS (R153), alone in slot 0. -/
def execCmpltsLong (p : Pred) (pd : PredReg) (rs : Reg) (imm : Word) (s : State) : Host.Outcome State Fault Refusal :=
  execAlone p (laneCmpltsLong pd rs imm s) s

/-- The lane of CMPLES (R154): Pd <- Rs LES Imm, short immediate. -/
def laneCmplesShort (c : BitVec 10) (rot : BitVec 4) (pd : PredReg) (rs : Reg) (s : State) : Lane :=
  Lane.setPred pd (condLes (s.readReg rs) (shortImm10 c rot))

/-- CMPLES (R154), alone in slot 0. -/
def execCmplesShort (p : Pred) (c : BitVec 10) (rot : BitVec 4) (pd : PredReg) (rs : Reg) (s : State) : Host.Outcome State Fault Refusal :=
  execAlone p (laneCmplesShort c rot pd rs s) s

/-- The lane of CMPLES (R154): Pd <- Rs LES (Rt SHF Imm). -/
def laneCmplesReg (amt : BitVec 5) (shf : Shf) (rt : Reg) (pd : PredReg) (rs : Reg) (s : State) : Lane :=
  Lane.setPred pd (condLes (s.readReg rs) (shiftConst shf amt (s.readReg rt)))

/-- CMPLES (R154), alone in slot 0. -/
def execCmplesReg (p : Pred) (amt : BitVec 5) (shf : Shf) (rt : Reg) (pd : PredReg) (rs : Reg) (s : State) : Host.Outcome State Fault Refusal :=
  execAlone p (laneCmplesReg amt shf rt pd rs s) s

/-- The lane of CMPLES (R154): Pd <- Rs LES Imm, long immediate. -/
def laneCmplesLong (pd : PredReg) (rs : Reg) (imm : Word) (s : State) : Lane :=
  Lane.setPred pd (condLes (s.readReg rs) imm)

/-- CMPLES (R154), alone in slot 0. -/
def execCmplesLong (p : Pred) (pd : PredReg) (rs : Reg) (imm : Word) (s : State) : Host.Outcome State Fault Refusal :=
  execAlone p (laneCmplesLong pd rs imm s) s

/-- The lane of CMPBS (R155): Pd <- Rs BS Imm, short immediate. -/
def laneCmpbsShort (c : BitVec 10) (rot : BitVec 4) (pd : PredReg) (rs : Reg) (s : State) : Lane :=
  Lane.setPred pd (condBs (s.readReg rs) (shortImm10 c rot))

/-- CMPBS (R155), alone in slot 0. -/
def execCmpbsShort (p : Pred) (c : BitVec 10) (rot : BitVec 4) (pd : PredReg) (rs : Reg) (s : State) : Host.Outcome State Fault Refusal :=
  execAlone p (laneCmpbsShort c rot pd rs s) s

/-- The lane of CMPBS (R155): Pd <- Rs BS (Rt SHF Imm). -/
def laneCmpbsReg (amt : BitVec 5) (shf : Shf) (rt : Reg) (pd : PredReg) (rs : Reg) (s : State) : Lane :=
  Lane.setPred pd (condBs (s.readReg rs) (shiftConst shf amt (s.readReg rt)))

/-- CMPBS (R155), alone in slot 0. -/
def execCmpbsReg (p : Pred) (amt : BitVec 5) (shf : Shf) (rt : Reg) (pd : PredReg) (rs : Reg) (s : State) : Host.Outcome State Fault Refusal :=
  execAlone p (laneCmpbsReg amt shf rt pd rs s) s

/-- The lane of CMPBS (R155): Pd <- Rs BS Imm, long immediate. -/
def laneCmpbsLong (pd : PredReg) (rs : Reg) (imm : Word) (s : State) : Lane :=
  Lane.setPred pd (condBs (s.readReg rs) imm)

/-- CMPBS (R155), alone in slot 0. -/
def execCmpbsLong (p : Pred) (pd : PredReg) (rs : Reg) (imm : Word) (s : State) : Host.Outcome State Fault Refusal :=
  execAlone p (laneCmpbsLong pd rs imm s) s

/-- The lane of CMPBC (R156): Pd <- Rs BC Imm, short immediate. -/
def laneCmpbcShort (c : BitVec 10) (rot : BitVec 4) (pd : PredReg) (rs : Reg) (s : State) : Lane :=
  Lane.setPred pd (condBc s.params.cmpbcReading (s.readReg rs) (shortImm10 c rot))

/-- CMPBC (R156), alone in slot 0. -/
def execCmpbcShort (p : Pred) (c : BitVec 10) (rot : BitVec 4) (pd : PredReg) (rs : Reg) (s : State) : Host.Outcome State Fault Refusal :=
  execAlone p (laneCmpbcShort c rot pd rs s) s

/-- The lane of CMPBC (R156): Pd <- Rs BC (Rt SHF Imm). -/
def laneCmpbcReg (amt : BitVec 5) (shf : Shf) (rt : Reg) (pd : PredReg) (rs : Reg) (s : State) : Lane :=
  Lane.setPred pd (condBc s.params.cmpbcReading (s.readReg rs) (shiftConst shf amt (s.readReg rt)))

/-- CMPBC (R156), alone in slot 0. -/
def execCmpbcReg (p : Pred) (amt : BitVec 5) (shf : Shf) (rt : Reg) (pd : PredReg) (rs : Reg) (s : State) : Host.Outcome State Fault Refusal :=
  execAlone p (laneCmpbcReg amt shf rt pd rs s) s

/-- The lane of CMPBC (R156): Pd <- Rs BC Imm, long immediate. -/
def laneCmpbcLong (pd : PredReg) (rs : Reg) (imm : Word) (s : State) : Lane :=
  Lane.setPred pd (condBc s.params.cmpbcReading (s.readReg rs) imm)

/-- CMPBC (R156), alone in slot 0. -/
def execCmpbcLong (p : Pred) (pd : PredReg) (rs : Reg) (imm : Word) (s : State) : Host.Outcome State Fault Refusal :=
  execAlone p (laneCmpbcLong pd rs imm s) s

end Sys2Proof.Machine
end

