-- ==== Sys2Proof/Machine/LoadStore.lean ====
section
/-! DEFINITION. The eight memory instructions (44_load_store.md R170 to R179). The slot `k` (0 or 1) is the lane whose
EC and EA registers report a fault. -/

namespace Sys2Proof.Machine

/-- The lane of LB (R170): Rd <- *b(Rs + OFFSET). -/
def laneLb (off : BitVec 12) (rd rs : Reg) (k : Fin 4) (s : State) : Lane :=
  Lane.load s k .byte false rd (loadAddr (s.readReg rs) off)

/-- LB (R170), alone in slot 0. -/
def execLb (p : Pred) (off : BitVec 12) (rd rs : Reg) (s : State) : Host.Outcome State Fault Refusal :=
  execAlone p (laneLb off rd rs 0 s) s

/-- The lane of LH (R171): Rd <- *h(Rs + OFFSET). -/
def laneLh (off : BitVec 12) (rd rs : Reg) (k : Fin 4) (s : State) : Lane :=
  Lane.load s k .half false rd (loadAddr (s.readReg rs) off)

/-- LH (R171), alone in slot 0. -/
def execLh (p : Pred) (off : BitVec 12) (rd rs : Reg) (s : State) : Host.Outcome State Fault Refusal :=
  execAlone p (laneLh off rd rs 0 s) s

/-- The lane of LW (R172): Rd <- *w(Rs + OFFSET). -/
def laneLw (off : BitVec 12) (rd rs : Reg) (k : Fin 4) (s : State) : Lane :=
  Lane.load s k .word false rd (loadAddr (s.readReg rs) off)

/-- LW (R172), alone in slot 0. -/
def execLw (p : Pred) (off : BitVec 12) (rd rs : Reg) (s : State) : Host.Outcome State Fault Refusal :=
  execAlone p (laneLw off rd rs 0 s) s

/-- The lane of LL (R173): Rd <- *ll(Rs + OFFSET). -/
def laneLl (off : BitVec 12) (rd rs : Reg) (k : Fin 4) (s : State) : Lane :=
  Lane.load s k .word true rd (loadAddr (s.readReg rs) off)

/-- LL (R173), alone in slot 0. -/
def execLl (p : Pred) (off : BitVec 12) (rd rs : Reg) (s : State) : Host.Outcome State Fault Refusal :=
  execAlone p (laneLl off rd rs 0 s) s

/-- The lane of SB (R174): *b(Rs + OFFSET) <- Rt. -/
def laneSb (off : BitVec 11) (m : Bool) (rt rs : Reg) (k : Fin 4) (s : State) : Lane :=
  Lane.store s k .byte m (storeAddr (s.readReg rs) off) (s.readReg rt)

/-- SB (R174), alone in slot 0. -/
def execSb (p : Pred) (off : BitVec 11) (m : Bool) (rt rs : Reg) (s : State) : Host.Outcome State Fault Refusal :=
  execAlone p (laneSb off m rt rs 0 s) s

/-- The lane of SH (R175): *h(Rs + OFFSET) <- Rt. -/
def laneSh (off : BitVec 11) (m : Bool) (rt rs : Reg) (k : Fin 4) (s : State) : Lane :=
  Lane.store s k .half m (storeAddr (s.readReg rs) off) (s.readReg rt)

/-- SH (R175), alone in slot 0. -/
def execSh (p : Pred) (off : BitVec 11) (m : Bool) (rt rs : Reg) (s : State) : Host.Outcome State Fault Refusal :=
  execAlone p (laneSh off m rt rs 0 s) s

/-- The lane of SW (R176): *w(Rs + OFFSET) <- Rt. -/
def laneSw (off : BitVec 11) (m : Bool) (rt rs : Reg) (k : Fin 4) (s : State) : Lane :=
  Lane.store s k .word m (storeAddr (s.readReg rs) off) (s.readReg rt)

/-- SW (R176), alone in slot 0. -/
def execSw (p : Pred) (off : BitVec 11) (m : Bool) (rt rs : Reg) (s : State) : Host.Outcome State Fault Refusal :=
  execAlone p (laneSw off m rt rs 0 s) s

/-- The lane of SC (R177): *sc(Rs + OFFSET) <- Rt. -/
def laneSc (off : BitVec 11) (m : Bool) (rt rs : Reg) (k : Fin 4) (s : State) : Lane :=
  Lane.storeConditional s k m (storeAddr (s.readReg rs) off) (s.readReg rt)

/-- SC (R177), alone in slot 0. -/
def execSc (p : Pred) (off : BitVec 11) (m : Bool) (rt rs : Reg) (s : State) : Host.Outcome State Fault Refusal :=
  execAlone p (laneSc off m rt rs 0 s) s

end Sys2Proof.Machine
end

