-- ==== Sys2Proof/Machine/MulDiv.lean ====
section
/-! DEFINITION. MULT, DIV, MFHI and MTHI (45_muldiv.md R190 to R193). -/

namespace Sys2Proof.Machine

/-- The exact 64-bit product (45_muldiv.md R190): signed when S is set. -/
def product (sg : Bool) (a b : Word) : BitVec 64 :=
  if sg then BitVec.ofInt 64 (a.toInt * b.toInt) else BitVec.ofNat 64 (a.toNat * b.toNat)

/-- The dividend (45_muldiv.md R191): Rs, or with W set the 64-bit value {OVF:Rs}; signed when S is set. -/
def dividend (sg wide : Bool) (ovf a : Word) : Int :=
  if wide then
    if sg then (ovf ++ a : BitVec 64).toInt else ((ovf ++ a : BitVec 64).toNat : Int)
  else if sg then a.toInt else (a.toNat : Int)

/-- The divisor (45_muldiv.md R191). -/
def divisor (sg : Bool) (d : Word) : Int := if sg then d.toInt else (d.toNat : Int)

/-- The exact quotient (45_muldiv.md R191): floor for unsigned, SDIV for signed. -/
def quotient (sd : SignedDivision) (sg : Bool) (n d : Int) : Int := if sg then sdiv sd n d else n / d

/-- The exact remainder (45_muldiv.md R191): `n - q * d` for unsigned, SREM for signed. -/
def remainder (sd : SignedDivision) (sg : Bool) (n d : Int) : Int := if sg then srem sd n d else n - n / d * d

/-- The quotient fits in 32 bits (45_muldiv.md R191). -/
def quotientFits (sg : Bool) (q : Int) : Bool :=
  if sg then decide (-0x80000000 ≤ q) && decide (q < 0x80000000) else decide (0 ≤ q) && decide (q < 0x100000000)

/-- DIV's quotient as RD receives it, of exact operands: a free value when it does not fit (45_muldiv.md R191, U20). -/
def divQuotient (sd : SignedDivision) (sg : Bool) (n d : Int) (tick : Nat) : Word :=
  if quotientFits sg (quotient sd sg n d) then BitVec.ofInt 32 (quotient sd sg n d)
  else Config.divOverflowQuotient tick sg n d

/-- DIV's remainder as `ovf` receives it: a free value when the quotient does not fit (45_muldiv.md R191, U20). -/
def divRemainder (sd : SignedDivision) (sg : Bool) (n d : Int) (tick : Nat) : Word :=
  if quotientFits sg (quotient sd sg n d) then BitVec.ofInt 32 (remainder sd sg n d)
  else Config.divOverflowRemainder tick sg n d

/-- The lane of MULT (R190): Rd <- Rs * Rt. -/
def laneMult (sg : Bool) (rt rd rs : Reg) (s : State) : Lane :=
  Lane.setRegOvf rd ((product sg (s.readReg rs) (s.readReg rt)).extractLsb' 0 32)
    ((product sg (s.readReg rs) (s.readReg rt)).extractLsb' 32 32)

/-- MULT (R190), alone in slot 0. -/
def execMult (p : Pred) (sg : Bool) (rt rd rs : Reg) (s : State) : Host.Outcome State Fault Refusal :=
  execAlone p (laneMult sg rt rd rs s) s

/-- The lane of DIV (R191): Rd <- Rs / Rt. -/
def laneDiv (sg : Bool) (rt : Reg) (wide : Bool) (rd rs : Reg) (s : State) : Lane :=
  if s.readReg rt = 0#32 then { exn := some .divideByZero, dests := [.reg rd, .ovf] }
  else
    Lane.setRegOvf rd
      (divQuotient s.params.signedDivision sg (dividend sg wide s.ovf (s.readReg rs)) (divisor sg (s.readReg rt)) s.tick)
      (divRemainder s.params.signedDivision sg (dividend sg wide s.ovf (s.readReg rs)) (divisor sg (s.readReg rt)) s.tick)

/-- DIV (R191), alone in slot 0. -/
def execDiv (p : Pred) (sg : Bool) (rt : Reg) (wide : Bool) (rd rs : Reg) (s : State) : Host.Outcome State Fault Refusal :=
  execAlone p (laneDiv sg rt wide rd rs s) s

/-- The lane of MFHI (R192): Rd <- OVF. -/
def laneMfhi (rd : Reg) (s : State) : Lane :=
  Lane.setReg rd s.ovf

/-- MFHI (R192), alone in slot 0. -/
def execMfhi (p : Pred) (rd : Reg) (s : State) : Host.Outcome State Fault Refusal :=
  execAlone p (laneMfhi rd s) s

/-- The lane of MTHI (R193): OVF <- Rs. -/
def laneMthi (rs : Reg) (s : State) : Lane :=
  { dests := [.ovf], writes := [.ovf (s.readReg rs)] }

/-- MTHI (R193), alone in slot 0. -/
def execMthi (p : Pred) (rs : Reg) (s : State) : Host.Outcome State Fault Refusal :=
  execAlone p (laneMthi rs s) s

end Sys2Proof.Machine
end

