-- ==== Sys2Proof/Machine/System.lean ====
section
/-! DEFINITION. BREAK, SYSCALL, FENCE, ERET, FLUSH, MFC and MTC (46_system.md R200 to R206). -/

namespace Sys2Proof.Machine

/-- The exception of a privileged instruction in user mode (46_system.md, 60_exceptions.md R223). -/
def Lane.privileged (l : Lane) (s : State) : Lane :=
  if s.mode = .user then { exn := some .insufficientPermissions, dests := l.dests } else l

/-- FLUSH.DATA or FLUSH.INST (46_system.md R204): the address is translated and checked as a read; the physical address
itself is not checked for validity (log 34). -/
def Lane.flushLine (which : TlbId) (write : Word → Write) (va : Word) (t : Translation) : Lane :=
  match t.result with
  | .error f => { exn := some (dataExn va f), fills := fillsOf which t }
  | .ok pa => { writes := [write pa], fills := fillsOf which t }

/-- FLUSH of a type (46_system.md R204). -/
def Lane.flush (s : State) (k : Fin 4) (ty : FlushType) (va : Word) : Lane :=
  match ty with
  | .data => Lane.flushLine .data .flushData va (translate s s.dtlb (.lane k) va false)
  | .inst => Lane.flushLine .inst .flushInst va (translate s s.itlb (.lane k) va false)
  | .dtlb => { writes := [.flushTlb .data (virtualPage va)] }
  | .itlb => { writes := [.flushTlb .inst (virtualPage va)] }

/-- The lane of BREAK (R200): BREAK. -/
def laneBrk : Lane :=
  { exn := some .brk }

/-- BREAK (R200), alone in slot 0. -/
def execBrk (p : Pred) (s : State) : Host.Outcome State Fault Refusal :=
  execAlone p laneBrk s

/-- The lane of SYSCALL (R201): SYSCALL. -/
def laneSyscall : Lane :=
  { exn := some .syscall }

/-- SYSCALL (R201), alone in slot 0. -/
def execSyscall (p : Pred) (s : State) : Host.Outcome State Fault Refusal :=
  execAlone p laneSyscall s

/-- The lane of FENCE (R202): FENCE. -/
def laneFence : Lane :=
  {}

/-- FENCE (R202), alone in slot 0. -/
def execFence (p : Pred) (s : State) : Host.Outcome State Fault Refusal :=
  execAlone p laneFence s

/-- The lane of ERET (R203): ERET. -/
def laneEret (s : State) : Lane :=
  Lane.privileged { writes := [.trapReturn] } s

/-- ERET (R203), alone in slot 0. -/
def execEret (p : Pred) (s : State) : Host.Outcome State Fault Refusal :=
  execAlone p (laneEret s) s

/-- The lane of FLUSH (R204): FLUSH.ty Rs. -/
def laneFlush (c : Bool) (ty : FlushType) (rs : Reg) (k : Fin 4) (s : State) : Lane :=
  if c then { refusal := some .flushWithCBit } else Lane.flush s k ty (s.readReg rs)

/-- FLUSH (R204), alone in slot 0. -/
def execFlush (p : Pred) (c : Bool) (ty : FlushType) (rs : Reg) (s : State) : Host.Outcome State Fault Refusal :=
  execAlone p (laneFlush c ty rs 0 s) s

/-- The lane of MFC (R205): Rd <- CPRs. -/
def laneMfc (rd : Reg) (cprs : CprNum) (s : State) : Lane :=
  match cprOf cprs with
  | none => { exn := some .illegalInstruction, dests := [.reg rd] }
  | some r => Lane.privileged (Lane.setReg rd (s.readCpr r)) s

/-- MFC (R205), alone in slot 0. -/
def execMfc (p : Pred) (rd : Reg) (cprs : CprNum) (s : State) : Host.Outcome State Fault Refusal :=
  execAlone p (laneMfc rd cprs s) s

/-- The lane of MTC (R206): CPRd <- Rs. -/
def laneMtc (cprd : CprNum) (rs : Reg) (s : State) : Lane :=
  match cprOf cprd with
  | none => Lane.illegal
  | some r => Lane.privileged { writes := [.cpr r (s.readReg rs)] } s

/-- MTC (R206), alone in slot 0. -/
def execMtc (p : Pred) (cprd : CprNum) (rs : Reg) (s : State) : Host.Outcome State Fault Refusal :=
  execAlone p (laneMtc cprd rs s) s

end Sys2Proof.Machine
end

