-- ==== Sys2Proof/Machine/Dispatch.lean ====
section
/-! DEFINITION. Which meaning each instruction has: one arm per constructor of Instr. -/

namespace Sys2Proof.Machine

def exec (i : Instr) (s : State) : Host.Outcome State Fault Refusal :=
  match i with
  | .addShort p c rot rd rs => Sys2Proof.Machine.execAddShort p c rot rd rs s
  | .addReg p amt shf rt rd rs => Sys2Proof.Machine.execAddReg p amt shf rt rd rs s
  | .addLong p rd rs imm => Sys2Proof.Machine.execAddLong p rd rs imm s
  | .andShort p c rot rd rs => Sys2Proof.Machine.execAndShort p c rot rd rs s
  | .andReg p amt shf rt rd rs => Sys2Proof.Machine.execAndReg p amt shf rt rd rs s
  | .andLong p rd rs imm => Sys2Proof.Machine.execAndLong p rd rs imm s
  | .norShort p c rot rd rs => Sys2Proof.Machine.execNorShort p c rot rd rs s
  | .norReg p amt shf rt rd rs => Sys2Proof.Machine.execNorReg p amt shf rt rd rs s
  | .norLong p rd rs imm => Sys2Proof.Machine.execNorLong p rd rs imm s
  | .orShort p c rot rd rs => Sys2Proof.Machine.execOrShort p c rot rd rs s
  | .orReg p amt shf rt rd rs => Sys2Proof.Machine.execOrReg p amt shf rt rd rs s
  | .orLong p rd rs imm => Sys2Proof.Machine.execOrLong p rd rs imm s
  | .subShort p c rot rd rs => Sys2Proof.Machine.execSubShort p c rot rd rs s
  | .subReg p amt shf rt rd rs => Sys2Proof.Machine.execSubReg p amt shf rt rd rs s
  | .subLong p rd rs imm => Sys2Proof.Machine.execSubLong p rd rs imm s
  | .rsbShort p c rot rd rs => Sys2Proof.Machine.execRsbShort p c rot rd rs s
  | .rsbReg p amt shf rt rd rs => Sys2Proof.Machine.execRsbReg p amt shf rt rd rs s
  | .rsbLong p rd rs imm => Sys2Proof.Machine.execRsbLong p rd rs imm s
  | .xorShort p c rot rd rs => Sys2Proof.Machine.execXorShort p c rot rd rs s
  | .xorReg p amt shf rt rd rs => Sys2Proof.Machine.execXorReg p amt shf rt rd rs s
  | .xorLong p rd rs imm => Sys2Proof.Machine.execXorLong p rd rs imm s
  | .movShort p lo rot rd hi => Sys2Proof.Machine.execMovShort p lo rot rd hi s
  | .movReg p amt shf rt rd => Sys2Proof.Machine.execMovReg p amt shf rt rd s
  | .movRegsh p shf rt rd rs => Sys2Proof.Machine.execMovRegsh p shf rt rd rs s
  | .movLong p rd imm => Sys2Proof.Machine.execMovLong p rd imm s
  | .mvnShort p lo rot rd hi => Sys2Proof.Machine.execMvnShort p lo rot rd hi s
  | .mvnReg p amt shf rt rd => Sys2Proof.Machine.execMvnReg p amt shf rt rd s
  | .mvnRegsh p shf rt rd rs => Sys2Proof.Machine.execMvnRegsh p shf rt rd rs s
  | .mvnLong p rd imm => Sys2Proof.Machine.execMvnLong p rd imm s
  | .sxbShort p lo rot rd hi => Sys2Proof.Machine.execSxbShort p lo rot rd hi s
  | .sxbReg p amt shf rt rd => Sys2Proof.Machine.execSxbReg p amt shf rt rd s
  | .sxbRegsh p shf rt rd rs => Sys2Proof.Machine.execSxbRegsh p shf rt rd rs s
  | .sxbLong p rd imm => Sys2Proof.Machine.execSxbLong p rd imm s
  | .sxhShort p lo rot rd hi => Sys2Proof.Machine.execSxhShort p lo rot rd hi s
  | .sxhReg p amt shf rt rd => Sys2Proof.Machine.execSxhReg p amt shf rt rd s
  | .sxhRegsh p shf rt rd rs => Sys2Proof.Machine.execSxhRegsh p shf rt rd rs s
  | .sxhLong p rd imm => Sys2Proof.Machine.execSxhLong p rd imm s
  | .cmpltuShort p c rot pd rs => Sys2Proof.Machine.execCmpltuShort p c rot pd rs s
  | .cmpltuReg p amt shf rt pd rs => Sys2Proof.Machine.execCmpltuReg p amt shf rt pd rs s
  | .cmpltuLong p pd rs imm => Sys2Proof.Machine.execCmpltuLong p pd rs imm s
  | .cmpleuShort p c rot pd rs => Sys2Proof.Machine.execCmpleuShort p c rot pd rs s
  | .cmpleuReg p amt shf rt pd rs => Sys2Proof.Machine.execCmpleuReg p amt shf rt pd rs s
  | .cmpleuLong p pd rs imm => Sys2Proof.Machine.execCmpleuLong p pd rs imm s
  | .cmpeqShort p c rot pd rs => Sys2Proof.Machine.execCmpeqShort p c rot pd rs s
  | .cmpeqReg p amt shf rt pd rs => Sys2Proof.Machine.execCmpeqReg p amt shf rt pd rs s
  | .cmpeqLong p pd rs imm => Sys2Proof.Machine.execCmpeqLong p pd rs imm s
  | .cmpltsShort p c rot pd rs => Sys2Proof.Machine.execCmpltsShort p c rot pd rs s
  | .cmpltsReg p amt shf rt pd rs => Sys2Proof.Machine.execCmpltsReg p amt shf rt pd rs s
  | .cmpltsLong p pd rs imm => Sys2Proof.Machine.execCmpltsLong p pd rs imm s
  | .cmplesShort p c rot pd rs => Sys2Proof.Machine.execCmplesShort p c rot pd rs s
  | .cmplesReg p amt shf rt pd rs => Sys2Proof.Machine.execCmplesReg p amt shf rt pd rs s
  | .cmplesLong p pd rs imm => Sys2Proof.Machine.execCmplesLong p pd rs imm s
  | .cmpbsShort p c rot pd rs => Sys2Proof.Machine.execCmpbsShort p c rot pd rs s
  | .cmpbsReg p amt shf rt pd rs => Sys2Proof.Machine.execCmpbsReg p amt shf rt pd rs s
  | .cmpbsLong p pd rs imm => Sys2Proof.Machine.execCmpbsLong p pd rs imm s
  | .cmpbcShort p c rot pd rs => Sys2Proof.Machine.execCmpbcShort p c rot pd rs s
  | .cmpbcReg p amt shf rt pd rs => Sys2Proof.Machine.execCmpbcReg p amt shf rt pd rs s
  | .cmpbcLong p pd rs imm => Sys2Proof.Machine.execCmpbcLong p pd rs imm s
  | .lb p off rd rs => Sys2Proof.Machine.execLb p off rd rs s
  | .lh p off rd rs => Sys2Proof.Machine.execLh p off rd rs s
  | .lw p off rd rs => Sys2Proof.Machine.execLw p off rd rs s
  | .ll p off rd rs => Sys2Proof.Machine.execLl p off rd rs s
  | .sb p off m rt rs => Sys2Proof.Machine.execSb p off m rt rs s
  | .sh p off m rt rs => Sys2Proof.Machine.execSh p off m rt rs s
  | .sw p off m rt rs => Sys2Proof.Machine.execSw p off m rt rs s
  | .sc p off m rt rs => Sys2Proof.Machine.execSc p off m rt rs s
  | .bImm p off => Sys2Proof.Machine.execBImm p off s
  | .bReg p off rs => Sys2Proof.Machine.execBReg p off rs s
  | .blImm p off => Sys2Proof.Machine.execBlImm p off s
  | .blReg p off rs => Sys2Proof.Machine.execBlReg p off rs s
  | .brk p => Sys2Proof.Machine.execBrk p s
  | .syscall p => Sys2Proof.Machine.execSyscall p s
  | .fence p => Sys2Proof.Machine.execFence p s
  | .eret p => Sys2Proof.Machine.execEret p s
  | .flush p c ty rs => Sys2Proof.Machine.execFlush p c ty rs s
  | .mfc p rd cprs => Sys2Proof.Machine.execMfc p rd cprs s
  | .mtc p cprd rs => Sys2Proof.Machine.execMtc p cprd rs s
  | .mult p sg rt rd rs => Sys2Proof.Machine.execMult p sg rt rd rs s
  | .div p sg rt wide rd rs => Sys2Proof.Machine.execDiv p sg rt wide rd rs s
  | .mfhi p rd => Sys2Proof.Machine.execMfhi p rd s
  | .mthi p rs => Sys2Proof.Machine.execMthi p rs s

end Sys2Proof.Machine
end

