-- ==== Sys2Proof/Decode.lean ====
section
/-! DEFINITION. The decoder of 30_encoding.md R96 (total, rejecting by name the shapes of R103), the slots of a packet
(40_packet_execution.md R111), and the encoder, written from the formats of R82 to R94. -/

namespace Sys2Proof

/-- The undefined encodings of 30_encoding.md R103, by shape. MFC and MTC with an undefined register number are
instructions that raise the exception themselves (46_system.md R205, R206). -/
inductive DecodeError where
  /-- ALU opcode 1100 to 1111. -/
  | reservedAluOpcode
  /-- A compare with Ctype 011. -/
  | undefinedCtype
  /-- Bits 28:21 = 10000001 with an ALU opcode that is not one-operand. -/
  | undefinedRegshOpcode
  /-- Bits 28:24 = 10000, bits 23:21 = 000, bits 20:14 not all zero. -/
  | nonzeroLongFiller
  /-- Bits 28:24 = 10000, bits 23:21 = 010 to 111. -/
  | undefinedGroup
  /-- Control opcode 0000 or 1100 to 1111. -/
  | undefinedControlOpcode
deriving DecidableEq, Repr

/-- A register number from its 5-bit field. -/
def regOfBits (b : BitVec 5) : Reg := ⟨b.toNat, b.isLt⟩

/-- The 5-bit field of a register number. -/
def bitsOfReg (r : Reg) : BitVec 5 := BitVec.ofNat 5 r.val

/-- A predicate register number from its 2-bit field. -/
def predRegOfBits (b : BitVec 2) : PredReg := ⟨b.toNat, b.isLt⟩

/-- The 2-bit field of a predicate register number. -/
def bitsOfPredReg (r : PredReg) : BitVec 2 := BitVec.ofNat 2 r.val

/-- SHF from bits 20:19 (30_encoding.md R101). -/
def shfOfBits (b : BitVec 2) : Shf :=
  match b.toNat with
  | 0 => .lsl
  | 1 => .lsr
  | 2 => .asr
  | _ => .ror

/-- The bits of SHF (30_encoding.md R101). -/
def bitsOfShf : Shf → BitVec 2
  | .lsl => 0b00#2
  | .lsr => 0b01#2
  | .asr => 0b10#2
  | .ror => 0b11#2

/-- TYPE from bits 11:10 (30_encoding.md R102). -/
def flushTypeOfBits (b : BitVec 2) : FlushType :=
  match b.toNat with
  | 0 => .data
  | 1 => .inst
  | 2 => .dtlb
  | _ => .itlb

/-- The bits of TYPE (30_encoding.md R102). -/
def bitsOfFlushType : FlushType → BitVec 2
  | .data => 0b00#2
  | .inst => 0b01#2
  | .dtlb => 0b10#2
  | .itlb => 0b11#2

/-! Fields of an instruction word, by the bit positions of R81 to R94. -/

/-- Pred: bits 31:30 the register, bit 29 the inversion (30_encoding.md R81). -/
def predField (w : Word) : Pred := ⟨predRegOfBits (w.extractLsb' 30 2), w.getLsbD 29⟩
/-- CONSTANT or CONSTLOW, bits 27:18. -/
def constantField (w : Word) : BitVec 10 := w.extractLsb' 18 10
/-- ROTATE, bits 17:14. -/
def rotateField (w : Word) : BitVec 4 := w.extractLsb' 14 4
/-- The ALU opcode, bits 13:10. -/
def aluOpField (w : Word) : BitVec 4 := w.extractLsb' 10 4
/-- RD, bits 9:5. -/
def rdField (w : Word) : Reg := regOfBits (w.extractLsb' 5 5)
/-- RS, bits 4:0. -/
def rsField (w : Word) : Reg := regOfBits (w.extractLsb' 0 5)
/-- RT, bits 18:14. -/
def rtField (w : Word) : Reg := regOfBits (w.extractLsb' 14 5)
/-- CONSTHI, bits 4:0. -/
def constHiField (w : Word) : BitVec 5 := w.extractLsb' 0 5
/-- SHIFTAMT, bits 25:21. -/
def shiftAmtField (w : Word) : BitVec 5 := w.extractLsb' 21 5
/-- SHF, bits 20:19. -/
def shfField (w : Word) : Shf := shfOfBits (w.extractLsb' 19 2)
/-- Ctype, bits 9:7. -/
def ctypeField (w : Word) : BitVec 3 := w.extractLsb' 7 3
/-- PD, bits 6:5. -/
def pdField (w : Word) : PredReg := predRegOfBits (w.extractLsb' 5 2)
/-- The LSU opcode, bits 12:10. -/
def lsuField (w : Word) : BitVec 3 := w.extractLsb' 10 3
/-- A load's OFFSET, bits 24:13. -/
def loadOffsetField (w : Word) : BitVec 12 := w.extractLsb' 13 12
/-- A store's OFFSET, OFFSETHIGH in bits 24:19 above OFFSETLOW in bits 9:5 (30_encoding.md R108). -/
def storeOffsetField (w : Word) : BitVec 11 := w.extractLsb' 19 6 ++ w.extractLsb' 5 5
/-- OFFSET of BR_IMM, bits 24:0. -/
def branchImmOffsetField (w : Word) : BitVec 25 := w.extractLsb' 0 25
/-- OFFSET of BR_REG, bits 24:5. -/
def branchRegOffsetField (w : Word) : BitVec 20 := w.extractLsb' 5 20
/-- The control opcode, bits 23:20. -/
def controlOpField (w : Word) : BitVec 4 := w.extractLsb' 20 4

/-- Format ALU_LONG, by bits 28:14 alone (30_encoding.md R105): the next slot is an operand. -/
def isLong (w : Word) : Bool := w.extractLsb' 14 15 == 0b100000000000000#15

/-- The short-immediate formats, bit 28 = 0 (30_encoding.md R82 to R84, R97, R98). -/
def decodeShort (w : Word) : Except DecodeError Instr :=
  match (aluOpField w).toNat with
  | 0 => .ok (.addShort (predField w) (constantField w) (rotateField w) (rdField w) (rsField w))
  | 1 => .ok (.andShort (predField w) (constantField w) (rotateField w) (rdField w) (rsField w))
  | 2 => .ok (.norShort (predField w) (constantField w) (rotateField w) (rdField w) (rsField w))
  | 3 => .ok (.orShort (predField w) (constantField w) (rotateField w) (rdField w) (rsField w))
  | 4 => .ok (.subShort (predField w) (constantField w) (rotateField w) (rdField w) (rsField w))
  | 5 => .ok (.rsbShort (predField w) (constantField w) (rotateField w) (rdField w) (rsField w))
  | 6 => .ok (.xorShort (predField w) (constantField w) (rotateField w) (rdField w) (rsField w))
  | 7 =>
    match (ctypeField w).toNat with
    | 0 => .ok (.cmpltuShort (predField w) (constantField w) (rotateField w) (pdField w) (rsField w))
    | 1 => .ok (.cmpleuShort (predField w) (constantField w) (rotateField w) (pdField w) (rsField w))
    | 2 => .ok (.cmpeqShort (predField w) (constantField w) (rotateField w) (pdField w) (rsField w))
    | 4 => .ok (.cmpltsShort (predField w) (constantField w) (rotateField w) (pdField w) (rsField w))
    | 5 => .ok (.cmplesShort (predField w) (constantField w) (rotateField w) (pdField w) (rsField w))
    | 6 => .ok (.cmpbsShort (predField w) (constantField w) (rotateField w) (pdField w) (rsField w))
    | 7 => .ok (.cmpbcShort (predField w) (constantField w) (rotateField w) (pdField w) (rsField w))
    | _ => .error .undefinedCtype
  | 8 => .ok (.movShort (predField w) (constantField w) (rotateField w) (rdField w) (constHiField w))
  | 9 => .ok (.mvnShort (predField w) (constantField w) (rotateField w) (rdField w) (constHiField w))
  | 10 => .ok (.sxbShort (predField w) (constantField w) (rotateField w) (rdField w) (constHiField w))
  | 11 => .ok (.sxhShort (predField w) (constantField w) (rotateField w) (rdField w) (constHiField w))
  | _ => .error .reservedAluOpcode

/-- The register formats, bits 28:26 = 101 (30_encoding.md R85 to R87, R97, R98). -/
def decodeReg (w : Word) : Except DecodeError Instr :=
  match (aluOpField w).toNat with
  | 0 => .ok (.addReg (predField w) (shiftAmtField w) (shfField w) (rtField w) (rdField w) (rsField w))
  | 1 => .ok (.andReg (predField w) (shiftAmtField w) (shfField w) (rtField w) (rdField w) (rsField w))
  | 2 => .ok (.norReg (predField w) (shiftAmtField w) (shfField w) (rtField w) (rdField w) (rsField w))
  | 3 => .ok (.orReg (predField w) (shiftAmtField w) (shfField w) (rtField w) (rdField w) (rsField w))
  | 4 => .ok (.subReg (predField w) (shiftAmtField w) (shfField w) (rtField w) (rdField w) (rsField w))
  | 5 => .ok (.rsbReg (predField w) (shiftAmtField w) (shfField w) (rtField w) (rdField w) (rsField w))
  | 6 => .ok (.xorReg (predField w) (shiftAmtField w) (shfField w) (rtField w) (rdField w) (rsField w))
  | 7 =>
    match (ctypeField w).toNat with
    | 0 => .ok (.cmpltuReg (predField w) (shiftAmtField w) (shfField w) (rtField w) (pdField w) (rsField w))
    | 1 => .ok (.cmpleuReg (predField w) (shiftAmtField w) (shfField w) (rtField w) (pdField w) (rsField w))
    | 2 => .ok (.cmpeqReg (predField w) (shiftAmtField w) (shfField w) (rtField w) (pdField w) (rsField w))
    | 4 => .ok (.cmpltsReg (predField w) (shiftAmtField w) (shfField w) (rtField w) (pdField w) (rsField w))
    | 5 => .ok (.cmplesReg (predField w) (shiftAmtField w) (shfField w) (rtField w) (pdField w) (rsField w))
    | 6 => .ok (.cmpbsReg (predField w) (shiftAmtField w) (shfField w) (rtField w) (pdField w) (rsField w))
    | 7 => .ok (.cmpbcReg (predField w) (shiftAmtField w) (shfField w) (rtField w) (pdField w) (rsField w))
    | _ => .error .undefinedCtype
  | 8 => .ok (.movReg (predField w) (shiftAmtField w) (shfField w) (rtField w) (rdField w))
  | 9 => .ok (.mvnReg (predField w) (shiftAmtField w) (shfField w) (rtField w) (rdField w))
  | 10 => .ok (.sxbReg (predField w) (shiftAmtField w) (shfField w) (rtField w) (rdField w))
  | 11 => .ok (.sxhReg (predField w) (shiftAmtField w) (shfField w) (rtField w) (rdField w))
  | _ => .error .reservedAluOpcode

/-- Format ALU1_REGSH, bits 28:21 = 10000001 (30_encoding.md R93). -/
def decodeRegsh (w : Word) : Except DecodeError Instr :=
  match (aluOpField w).toNat with
  | 8 => .ok (.movRegsh (predField w) (shfField w) (rtField w) (rdField w) (rsField w))
  | 9 => .ok (.mvnRegsh (predField w) (shfField w) (rtField w) (rdField w) (rsField w))
  | 10 => .ok (.sxbRegsh (predField w) (shfField w) (rtField w) (rdField w) (rsField w))
  | 11 => .ok (.sxhRegsh (predField w) (shfField w) (rtField w) (rdField w) (rsField w))
  | _ => .error .undefinedRegshOpcode

/-- Format ALU_LONG; `next` is the word of the following slot (30_encoding.md R94, R105). -/
def decodeLong (w next : Word) : Except DecodeError Instr :=
  match (aluOpField w).toNat with
  | 0 => .ok (.addLong (predField w) (rdField w) (rsField w) next)
  | 1 => .ok (.andLong (predField w) (rdField w) (rsField w) next)
  | 2 => .ok (.norLong (predField w) (rdField w) (rsField w) next)
  | 3 => .ok (.orLong (predField w) (rdField w) (rsField w) next)
  | 4 => .ok (.subLong (predField w) (rdField w) (rsField w) next)
  | 5 => .ok (.rsbLong (predField w) (rdField w) (rsField w) next)
  | 6 => .ok (.xorLong (predField w) (rdField w) (rsField w) next)
  | 7 =>
    match (ctypeField w).toNat with
    | 0 => .ok (.cmpltuLong (predField w) (pdField w) (rsField w) next)
    | 1 => .ok (.cmpleuLong (predField w) (pdField w) (rsField w) next)
    | 2 => .ok (.cmpeqLong (predField w) (pdField w) (rsField w) next)
    | 4 => .ok (.cmpltsLong (predField w) (pdField w) (rsField w) next)
    | 5 => .ok (.cmplesLong (predField w) (pdField w) (rsField w) next)
    | 6 => .ok (.cmpbsLong (predField w) (pdField w) (rsField w) next)
    | 7 => .ok (.cmpbcLong (predField w) (pdField w) (rsField w) next)
    | _ => .error .undefinedCtype
  | 8 => .ok (.movLong (predField w) (rdField w) next)
  | 9 => .ok (.mvnLong (predField w) (rdField w) next)
  | 10 => .ok (.sxbLong (predField w) (rdField w) next)
  | 11 => .ok (.sxhLong (predField w) (rdField w) next)
  | _ => .error .reservedAluOpcode

/-- Formats LOAD and STORE, bits 28:25 = 1001 (30_encoding.md R88, R89, R99). -/
def decodeMemory (w : Word) : Except DecodeError Instr :=
  match (lsuField w).toNat with
  | 0 => .ok (.lb (predField w) (loadOffsetField w) (rdField w) (rsField w))
  | 1 => .ok (.lh (predField w) (loadOffsetField w) (rdField w) (rsField w))
  | 2 => .ok (.lw (predField w) (loadOffsetField w) (rdField w) (rsField w))
  | 3 => .ok (.ll (predField w) (loadOffsetField w) (rdField w) (rsField w))
  | 4 => .ok (.sb (predField w) (storeOffsetField w) (w.getLsbD 13) (rtField w) (rsField w))
  | 5 => .ok (.sh (predField w) (storeOffsetField w) (w.getLsbD 13) (rtField w) (rsField w))
  | 6 => .ok (.sw (predField w) (storeOffsetField w) (w.getLsbD 13) (rtField w) (rsField w))
  | _ => .ok (.sc (predField w) (storeOffsetField w) (w.getLsbD 13) (rtField w) (rsField w))

/-- Format CTRL, bits 28:24 = 10001 (30_encoding.md R92, R100). -/
def decodeControl (w : Word) : Except DecodeError Instr :=
  match (controlOpField w).toNat with
  | 1 => .ok (.brk (predField w))
  | 2 => .ok (.syscall (predField w))
  | 3 => .ok (.fence (predField w))
  | 4 => .ok (.eret (predField w))
  | 5 => .ok (.flush (predField w) (w.getLsbD 19) (flushTypeOfBits (w.extractLsb' 10 2)) (rsField w))
  | 6 => .ok (.mfc (predField w) (rdField w) (rsField w))
  | 7 => .ok (.mtc (predField w) (rdField w) (rsField w))
  | 8 => .ok (.mult (predField w) (w.getLsbD 19) (rtField w) (rdField w) (rsField w))
  | 9 => .ok (.div (predField w) (w.getLsbD 19) (rtField w) (w.getLsbD 13) (rdField w) (rsField w))
  | 10 => .ok (.mfhi (predField w) (rdField w))
  | 11 => .ok (.mthi (predField w) (rsField w))
  | _ => .error .undefinedControlOpcode

/-- The decoder of 30_encoding.md R96; `next` is the word of the following slot, which only ALU_LONG uses. -/
def decode (w next : Word) : Except DecodeError Instr :=
  if w.getLsbD 28 = false then decodeShort w
  else
    match (w.extractLsb' 26 2).toNat with
    | 1 => decodeReg w
    | 2 =>
      if w.getLsbD 25 then .ok (.blImm (predField w) (branchImmOffsetField w))
      else .ok (.bImm (predField w) (branchImmOffsetField w))
    | 3 =>
      if w.getLsbD 25 then .ok (.blReg (predField w) (branchRegOffsetField w) (rsField w))
      else .ok (.bReg (predField w) (branchRegOffsetField w) (rsField w))
    | _ =>
      if w.getLsbD 25 then decodeMemory w
      else if w.getLsbD 24 then decodeControl w
      else if w.extractLsb' 21 3 = 0b001#3 then decodeRegsh w
      else if w.extractLsb' 14 10 = 0#10 then decodeLong w next
      else if w.extractLsb' 21 3 = 0b000#3 then .error .nonzeroLongFiller
      else .error .undefinedGroup

/-- What one slot of a packet holds (40_packet_execution.md R111). -/
inductive Slot where
  /-- An instruction. -/
  | instr (i : Instr)
  /-- An undefined encoding, with its Pred field (30_encoding.md R103). -/
  | undefined (p : Pred) (e : DecodeError)
  /-- The operand of a long-immediate instruction in the slot before: it issues nothing. -/
  | operand
deriving DecidableEq, Repr

/-- The four slots of a packet, slot 0 at the lowest address (40_packet_execution.md R110). -/
structure Packet where
  slot0 : Slot
  slot1 : Slot
  slot2 : Slot
  slot3 : Slot
deriving DecidableEq, Repr

/-- A slot that is not an operand, decoded; `next` is the following slot's word. -/
def instrSlot (w next : Word) : Slot :=
  match decode w next with
  | .ok i => .instr i
  | .error e => .undefined (predField w) e

/-- Slot decoding (40_packet_execution.md R111, 30_encoding.md R105): slots in order, a slot after an ALU_LONG word
that is itself an instruction slot is an operand, whatever any predicate. Slot 3 has no following word. -/
def decodePacket (w0 w1 w2 w3 : Word) : Packet :=
  let long0 := isLong w0
  let long1 := !long0 && isLong w1
  let long2 := !long1 && isLong w2
  { slot0 := instrSlot w0 w1
    slot1 := if long0 then .operand else instrSlot w1 w2
    slot2 := if long1 then .operand else instrSlot w2 w3
    slot3 := if long2 then .operand else instrSlot w3 0#32 }

/-! Bytes: every word is stored little-endian (20_memory.md R43, R44). -/

/-- The four bytes of a word, the one at the lowest address first. -/
def bytesOfWord (w : Word) : List Byte :=
  [w.extractLsb' 0 8, w.extractLsb' 8 8, w.extractLsb' 16 8, w.extractLsb' 24 8]

/-- The word whose bytes are b0 (lowest address) to b3. -/
def wordOfBytes (b0 b1 b2 b3 : Byte) : Word := b3 ++ b2 ++ b1 ++ b0

/-- Decode an instruction from bytes in memory order: one word, and the word after it for a long immediate. Fewer than
eight bytes hold no slot and its successor, and give no instruction. -/
def decodeBytes : List Byte → Option Instr
  | b0 :: b1 :: b2 :: b3 :: c0 :: c1 :: c2 :: c3 :: _ =>
    (decode (wordOfBytes b0 b1 b2 b3) (wordOfBytes c0 c1 c2 c3)).toOption
  | _ => none

/-- The first and second words of an instruction whose `nbits` bits are `w`, bits numbered on from the first word to
the second, every bit above `nbits` zero. -/
def tableWords (nbits w : Nat) : Word × Word :=
  let v := w % 2 ^ nbits
  (BitVec.ofNat 32 v, BitVec.ofNat 32 (v / 2 ^ 32))

/-- The instruction the decoder reads from the bits `w` of an opcode-table row (none where it refuses). -/
def decodeTableWord (nbits w : Nat) : Option Instr :=
  let (w0, w1) := tableWords nbits w
  decodeBytes (bytesOfWord w0 ++ bytesOfWord w1)

/-! The encoder: one function per format, then one line per instruction. Bits drawn X are written 0 (R104). -/

/-- Bits 31:29 (30_encoding.md R81). -/
def bitsOfPred (p : Pred) : BitVec 3 := bitsOfPredReg p.reg ++ BitVec.ofBool p.inv

/-- ALU2_SHORT (30_encoding.md R82). -/
def fmtAlu2Short (p : Pred) (op : BitVec 4) (c : BitVec 10) (rot : BitVec 4) (rd rs : Reg) : Word :=
  bitsOfPred p ++ 0b0#1 ++ c ++ rot ++ op ++ bitsOfReg rd ++ bitsOfReg rs

/-- CMP_SHORT (30_encoding.md R83). -/
def fmtCmpShort (p : Pred) (ct : BitVec 3) (c : BitVec 10) (rot : BitVec 4) (pd : PredReg) (rs : Reg) : Word :=
  bitsOfPred p ++ 0b0#1 ++ c ++ rot ++ 0b0111#4 ++ ct ++ bitsOfPredReg pd ++ bitsOfReg rs

/-- ALU1_SHORT (30_encoding.md R84). -/
def fmtAlu1Short (p : Pred) (op : BitVec 4) (lo : BitVec 10) (rot : BitVec 4) (rd : Reg) (hi : BitVec 5) : Word :=
  bitsOfPred p ++ 0b0#1 ++ lo ++ rot ++ op ++ bitsOfReg rd ++ hi

/-- ALU2_REG (30_encoding.md R85). -/
def fmtAlu2Reg (p : Pred) (op : BitVec 4) (amt : BitVec 5) (shf : Shf) (rt rd rs : Reg) : Word :=
  bitsOfPred p ++ 0b101#3 ++ amt ++ bitsOfShf shf ++ bitsOfReg rt ++ op ++ bitsOfReg rd ++ bitsOfReg rs

/-- CMP_REG (30_encoding.md R86). -/
def fmtCmpReg (p : Pred) (ct : BitVec 3) (amt : BitVec 5) (shf : Shf) (rt : Reg) (pd : PredReg) (rs : Reg) : Word :=
  bitsOfPred p ++ 0b101#3 ++ amt ++ bitsOfShf shf ++ bitsOfReg rt ++ 0b0111#4 ++ ct ++ bitsOfPredReg pd ++ bitsOfReg rs

/-- ALU1_REG (30_encoding.md R87). -/
def fmtAlu1Reg (p : Pred) (op : BitVec 4) (amt : BitVec 5) (shf : Shf) (rt rd : Reg) : Word :=
  bitsOfPred p ++ 0b101#3 ++ amt ++ bitsOfShf shf ++ bitsOfReg rt ++ op ++ bitsOfReg rd ++ 0#5

/-- LOAD (30_encoding.md R88). -/
def fmtLoad (p : Pred) (lsu : BitVec 3) (off : BitVec 12) (rd rs : Reg) : Word :=
  bitsOfPred p ++ 0b1001#4 ++ off ++ lsu ++ bitsOfReg rd ++ bitsOfReg rs

/-- STORE (30_encoding.md R89). -/
def fmtStore (p : Pred) (lsu : BitVec 3) (off : BitVec 11) (m : Bool) (rt rs : Reg) : Word :=
  bitsOfPred p ++ 0b1001#4 ++ off.extractLsb' 5 6 ++ bitsOfReg rt ++ BitVec.ofBool m ++ lsu ++ off.extractLsb' 0 5
    ++ bitsOfReg rs

/-- BR_IMM (30_encoding.md R90). -/
def fmtBrImm (p : Pred) (l : Bool) (off : BitVec 25) : Word :=
  bitsOfPred p ++ 0b110#3 ++ BitVec.ofBool l ++ off

/-- BR_REG (30_encoding.md R91). -/
def fmtBrReg (p : Pred) (l : Bool) (off : BitVec 20) (rs : Reg) : Word :=
  bitsOfPred p ++ 0b111#3 ++ BitVec.ofBool l ++ off ++ bitsOfReg rs

/-- CTRL (30_encoding.md R92): control opcode, bit 19, bits 18:14, bit 13, bit 12 (X), bits 11:10, bits 9:5, bits 4:0. -/
def fmtCtrl (p : Pred) (op : BitVec 4) (b19 : Bool) (f18 : BitVec 5) (b13 : Bool) (f11 : BitVec 2)
    (f9 f4 : BitVec 5) : Word :=
  bitsOfPred p ++ 0b10001#5 ++ op ++ BitVec.ofBool b19 ++ f18 ++ BitVec.ofBool b13 ++ 0b0#1 ++ f11 ++ f9 ++ f4

/-- ALU1_REGSH (30_encoding.md R93). -/
def fmtAlu1Regsh (p : Pred) (op : BitVec 4) (shf : Shf) (rt rd rs : Reg) : Word :=
  bitsOfPred p ++ 0b10000001#8 ++ bitsOfShf shf ++ bitsOfReg rt ++ op ++ bitsOfReg rd ++ bitsOfReg rs

/-- ALU_LONG of an ALU instruction, its first word (30_encoding.md R94); bits 4:0 are RS, or X. -/
def fmtAluLong (p : Pred) (op : BitVec 4) (rd : Reg) (low : BitVec 5) : Word :=
  bitsOfPred p ++ 0b100000000000000#15 ++ op ++ bitsOfReg rd ++ low

/-- ALU_LONG of a compare, its first word (30_encoding.md R94). -/
def fmtCmpLong (p : Pred) (ct : BitVec 3) (pd : PredReg) (rs : Reg) : Word :=
  bitsOfPred p ++ 0b100000000000000#15 ++ 0b0111#4 ++ ct ++ bitsOfPredReg pd ++ bitsOfReg rs

/-- The first word of an instruction. -/
def encodeWord : Instr → Word
  | .addShort p c rot rd rs => fmtAlu2Short p 0b0000#4 c rot rd rs
  | .addReg p amt shf rt rd rs => fmtAlu2Reg p 0b0000#4 amt shf rt rd rs
  | .addLong p rd rs _ => fmtAluLong p 0b0000#4 rd (bitsOfReg rs)
  | .andShort p c rot rd rs => fmtAlu2Short p 0b0001#4 c rot rd rs
  | .andReg p amt shf rt rd rs => fmtAlu2Reg p 0b0001#4 amt shf rt rd rs
  | .andLong p rd rs _ => fmtAluLong p 0b0001#4 rd (bitsOfReg rs)
  | .norShort p c rot rd rs => fmtAlu2Short p 0b0010#4 c rot rd rs
  | .norReg p amt shf rt rd rs => fmtAlu2Reg p 0b0010#4 amt shf rt rd rs
  | .norLong p rd rs _ => fmtAluLong p 0b0010#4 rd (bitsOfReg rs)
  | .orShort p c rot rd rs => fmtAlu2Short p 0b0011#4 c rot rd rs
  | .orReg p amt shf rt rd rs => fmtAlu2Reg p 0b0011#4 amt shf rt rd rs
  | .orLong p rd rs _ => fmtAluLong p 0b0011#4 rd (bitsOfReg rs)
  | .subShort p c rot rd rs => fmtAlu2Short p 0b0100#4 c rot rd rs
  | .subReg p amt shf rt rd rs => fmtAlu2Reg p 0b0100#4 amt shf rt rd rs
  | .subLong p rd rs _ => fmtAluLong p 0b0100#4 rd (bitsOfReg rs)
  | .rsbShort p c rot rd rs => fmtAlu2Short p 0b0101#4 c rot rd rs
  | .rsbReg p amt shf rt rd rs => fmtAlu2Reg p 0b0101#4 amt shf rt rd rs
  | .rsbLong p rd rs _ => fmtAluLong p 0b0101#4 rd (bitsOfReg rs)
  | .xorShort p c rot rd rs => fmtAlu2Short p 0b0110#4 c rot rd rs
  | .xorReg p amt shf rt rd rs => fmtAlu2Reg p 0b0110#4 amt shf rt rd rs
  | .xorLong p rd rs _ => fmtAluLong p 0b0110#4 rd (bitsOfReg rs)
  | .movShort p lo rot rd hi => fmtAlu1Short p 0b1000#4 lo rot rd hi
  | .movReg p amt shf rt rd => fmtAlu1Reg p 0b1000#4 amt shf rt rd
  | .movRegsh p shf rt rd rs => fmtAlu1Regsh p 0b1000#4 shf rt rd rs
  | .movLong p rd _ => fmtAluLong p 0b1000#4 rd 0#5
  | .mvnShort p lo rot rd hi => fmtAlu1Short p 0b1001#4 lo rot rd hi
  | .mvnReg p amt shf rt rd => fmtAlu1Reg p 0b1001#4 amt shf rt rd
  | .mvnRegsh p shf rt rd rs => fmtAlu1Regsh p 0b1001#4 shf rt rd rs
  | .mvnLong p rd _ => fmtAluLong p 0b1001#4 rd 0#5
  | .sxbShort p lo rot rd hi => fmtAlu1Short p 0b1010#4 lo rot rd hi
  | .sxbReg p amt shf rt rd => fmtAlu1Reg p 0b1010#4 amt shf rt rd
  | .sxbRegsh p shf rt rd rs => fmtAlu1Regsh p 0b1010#4 shf rt rd rs
  | .sxbLong p rd _ => fmtAluLong p 0b1010#4 rd 0#5
  | .sxhShort p lo rot rd hi => fmtAlu1Short p 0b1011#4 lo rot rd hi
  | .sxhReg p amt shf rt rd => fmtAlu1Reg p 0b1011#4 amt shf rt rd
  | .sxhRegsh p shf rt rd rs => fmtAlu1Regsh p 0b1011#4 shf rt rd rs
  | .sxhLong p rd _ => fmtAluLong p 0b1011#4 rd 0#5
  | .cmpltuShort p c rot pd rs => fmtCmpShort p 0b000#3 c rot pd rs
  | .cmpltuReg p amt shf rt pd rs => fmtCmpReg p 0b000#3 amt shf rt pd rs
  | .cmpltuLong p pd rs _ => fmtCmpLong p 0b000#3 pd rs
  | .cmpleuShort p c rot pd rs => fmtCmpShort p 0b001#3 c rot pd rs
  | .cmpleuReg p amt shf rt pd rs => fmtCmpReg p 0b001#3 amt shf rt pd rs
  | .cmpleuLong p pd rs _ => fmtCmpLong p 0b001#3 pd rs
  | .cmpeqShort p c rot pd rs => fmtCmpShort p 0b010#3 c rot pd rs
  | .cmpeqReg p amt shf rt pd rs => fmtCmpReg p 0b010#3 amt shf rt pd rs
  | .cmpeqLong p pd rs _ => fmtCmpLong p 0b010#3 pd rs
  | .cmpltsShort p c rot pd rs => fmtCmpShort p 0b100#3 c rot pd rs
  | .cmpltsReg p amt shf rt pd rs => fmtCmpReg p 0b100#3 amt shf rt pd rs
  | .cmpltsLong p pd rs _ => fmtCmpLong p 0b100#3 pd rs
  | .cmplesShort p c rot pd rs => fmtCmpShort p 0b101#3 c rot pd rs
  | .cmplesReg p amt shf rt pd rs => fmtCmpReg p 0b101#3 amt shf rt pd rs
  | .cmplesLong p pd rs _ => fmtCmpLong p 0b101#3 pd rs
  | .cmpbsShort p c rot pd rs => fmtCmpShort p 0b110#3 c rot pd rs
  | .cmpbsReg p amt shf rt pd rs => fmtCmpReg p 0b110#3 amt shf rt pd rs
  | .cmpbsLong p pd rs _ => fmtCmpLong p 0b110#3 pd rs
  | .cmpbcShort p c rot pd rs => fmtCmpShort p 0b111#3 c rot pd rs
  | .cmpbcReg p amt shf rt pd rs => fmtCmpReg p 0b111#3 amt shf rt pd rs
  | .cmpbcLong p pd rs _ => fmtCmpLong p 0b111#3 pd rs
  | .lb p off rd rs => fmtLoad p 0b000#3 off rd rs
  | .lh p off rd rs => fmtLoad p 0b001#3 off rd rs
  | .lw p off rd rs => fmtLoad p 0b010#3 off rd rs
  | .ll p off rd rs => fmtLoad p 0b011#3 off rd rs
  | .sb p off m rt rs => fmtStore p 0b100#3 off m rt rs
  | .sh p off m rt rs => fmtStore p 0b101#3 off m rt rs
  | .sw p off m rt rs => fmtStore p 0b110#3 off m rt rs
  | .sc p off m rt rs => fmtStore p 0b111#3 off m rt rs
  | .bImm p off => fmtBrImm p false off
  | .bReg p off rs => fmtBrReg p false off rs
  | .blImm p off => fmtBrImm p true off
  | .blReg p off rs => fmtBrReg p true off rs
  | .brk p => fmtCtrl p 0b0001#4 false 0#5 false 0#2 0#5 0#5
  | .syscall p => fmtCtrl p 0b0010#4 false 0#5 false 0#2 0#5 0#5
  | .fence p => fmtCtrl p 0b0011#4 false 0#5 false 0#2 0#5 0#5
  | .eret p => fmtCtrl p 0b0100#4 false 0#5 false 0#2 0#5 0#5
  | .flush p c ty rs => fmtCtrl p 0b0101#4 c 0#5 false (bitsOfFlushType ty) 0#5 (bitsOfReg rs)
  | .mfc p rd cprs => fmtCtrl p 0b0110#4 false 0#5 false 0#2 (bitsOfReg rd) (bitsOfReg cprs)
  | .mtc p cprd rs => fmtCtrl p 0b0111#4 false 0#5 false 0#2 (bitsOfReg cprd) (bitsOfReg rs)
  | .mult p sg rt rd rs => fmtCtrl p 0b1000#4 sg (bitsOfReg rt) false 0#2 (bitsOfReg rd) (bitsOfReg rs)
  | .div p sg rt wide rd rs => fmtCtrl p 0b1001#4 sg (bitsOfReg rt) wide 0#2 (bitsOfReg rd) (bitsOfReg rs)
  | .mfhi p rd => fmtCtrl p 0b1010#4 false 0#5 false 0#2 (bitsOfReg rd) 0#5
  | .mthi p rs => fmtCtrl p 0b1011#4 false 0#5 false 0#2 0#5 (bitsOfReg rs)

/-- The operand word of a long-immediate instruction (30_encoding.md R94, R105). -/
def longOperand : Instr → Option Word
  | .addShort _ _ _ _ _ => none
  | .addReg _ _ _ _ _ _ => none
  | .addLong _ _ _ imm => some imm
  | .andShort _ _ _ _ _ => none
  | .andReg _ _ _ _ _ _ => none
  | .andLong _ _ _ imm => some imm
  | .norShort _ _ _ _ _ => none
  | .norReg _ _ _ _ _ _ => none
  | .norLong _ _ _ imm => some imm
  | .orShort _ _ _ _ _ => none
  | .orReg _ _ _ _ _ _ => none
  | .orLong _ _ _ imm => some imm
  | .subShort _ _ _ _ _ => none
  | .subReg _ _ _ _ _ _ => none
  | .subLong _ _ _ imm => some imm
  | .rsbShort _ _ _ _ _ => none
  | .rsbReg _ _ _ _ _ _ => none
  | .rsbLong _ _ _ imm => some imm
  | .xorShort _ _ _ _ _ => none
  | .xorReg _ _ _ _ _ _ => none
  | .xorLong _ _ _ imm => some imm
  | .movShort _ _ _ _ _ => none
  | .movReg _ _ _ _ _ => none
  | .movRegsh _ _ _ _ _ => none
  | .movLong _ _ imm => some imm
  | .mvnShort _ _ _ _ _ => none
  | .mvnReg _ _ _ _ _ => none
  | .mvnRegsh _ _ _ _ _ => none
  | .mvnLong _ _ imm => some imm
  | .sxbShort _ _ _ _ _ => none
  | .sxbReg _ _ _ _ _ => none
  | .sxbRegsh _ _ _ _ _ => none
  | .sxbLong _ _ imm => some imm
  | .sxhShort _ _ _ _ _ => none
  | .sxhReg _ _ _ _ _ => none
  | .sxhRegsh _ _ _ _ _ => none
  | .sxhLong _ _ imm => some imm
  | .cmpltuShort _ _ _ _ _ => none
  | .cmpltuReg _ _ _ _ _ _ => none
  | .cmpltuLong _ _ _ imm => some imm
  | .cmpleuShort _ _ _ _ _ => none
  | .cmpleuReg _ _ _ _ _ _ => none
  | .cmpleuLong _ _ _ imm => some imm
  | .cmpeqShort _ _ _ _ _ => none
  | .cmpeqReg _ _ _ _ _ _ => none
  | .cmpeqLong _ _ _ imm => some imm
  | .cmpltsShort _ _ _ _ _ => none
  | .cmpltsReg _ _ _ _ _ _ => none
  | .cmpltsLong _ _ _ imm => some imm
  | .cmplesShort _ _ _ _ _ => none
  | .cmplesReg _ _ _ _ _ _ => none
  | .cmplesLong _ _ _ imm => some imm
  | .cmpbsShort _ _ _ _ _ => none
  | .cmpbsReg _ _ _ _ _ _ => none
  | .cmpbsLong _ _ _ imm => some imm
  | .cmpbcShort _ _ _ _ _ => none
  | .cmpbcReg _ _ _ _ _ _ => none
  | .cmpbcLong _ _ _ imm => some imm
  | .lb _ _ _ _ => none
  | .lh _ _ _ _ => none
  | .lw _ _ _ _ => none
  | .ll _ _ _ _ => none
  | .sb _ _ _ _ _ => none
  | .sh _ _ _ _ _ => none
  | .sw _ _ _ _ _ => none
  | .sc _ _ _ _ _ => none
  | .bImm _ _ => none
  | .bReg _ _ _ => none
  | .blImm _ _ => none
  | .blReg _ _ _ => none
  | .brk _ => none
  | .syscall _ => none
  | .fence _ => none
  | .eret _ => none
  | .flush _ _ _ _ => none
  | .mfc _ _ _ => none
  | .mtc _ _ _ => none
  | .mult _ _ _ _ _ => none
  | .div _ _ _ _ _ _ => none
  | .mfhi _ _ => none
  | .mthi _ _ => none

/-- The words of an instruction: one, or two for the long form. -/
def encode (i : Instr) : List Word := encodeWord i :: (longOperand i).toList

/-- The bytes of an instruction as memory holds them. -/
def encodeBytes (i : Instr) : List Byte := (encode i).flatMap bytesOfWord

end Sys2Proof
end

