-- ==== Sys2Proof/Machine/Packet.lean ====
section
/-! DEFINITION. A packet: what each of its four slots contributes, and its execution (40_packet_execution.md R110 to
R118). -/

namespace Sys2Proof.Machine

/-- What an instruction in slot `k` contributes when it executes, from the state before the packet (R114). -/
def issue (i : Instr) (k : Fin 4) (s : State) : Lane :=
  match i with
  | .addShort _ c rot rd rs => laneAddShort c rot rd rs s
  | .addReg _ amt shf rt rd rs => laneAddReg amt shf rt rd rs s
  | .addLong _ rd rs imm => laneAddLong rd rs imm s
  | .andShort _ c rot rd rs => laneAndShort c rot rd rs s
  | .andReg _ amt shf rt rd rs => laneAndReg amt shf rt rd rs s
  | .andLong _ rd rs imm => laneAndLong rd rs imm s
  | .norShort _ c rot rd rs => laneNorShort c rot rd rs s
  | .norReg _ amt shf rt rd rs => laneNorReg amt shf rt rd rs s
  | .norLong _ rd rs imm => laneNorLong rd rs imm s
  | .orShort _ c rot rd rs => laneOrShort c rot rd rs s
  | .orReg _ amt shf rt rd rs => laneOrReg amt shf rt rd rs s
  | .orLong _ rd rs imm => laneOrLong rd rs imm s
  | .subShort _ c rot rd rs => laneSubShort c rot rd rs s
  | .subReg _ amt shf rt rd rs => laneSubReg amt shf rt rd rs s
  | .subLong _ rd rs imm => laneSubLong rd rs imm s
  | .rsbShort _ c rot rd rs => laneRsbShort c rot rd rs s
  | .rsbReg _ amt shf rt rd rs => laneRsbReg amt shf rt rd rs s
  | .rsbLong _ rd rs imm => laneRsbLong rd rs imm s
  | .xorShort _ c rot rd rs => laneXorShort c rot rd rs s
  | .xorReg _ amt shf rt rd rs => laneXorReg amt shf rt rd rs s
  | .xorLong _ rd rs imm => laneXorLong rd rs imm s
  | .movShort _ lo rot rd hi => laneMovShort lo rot rd hi
  | .movReg _ amt shf rt rd => laneMovReg amt shf rt rd s
  | .movRegsh _ shf rt rd rs => laneMovRegsh shf rt rd rs s
  | .movLong _ rd imm => laneMovLong rd imm
  | .mvnShort _ lo rot rd hi => laneMvnShort lo rot rd hi
  | .mvnReg _ amt shf rt rd => laneMvnReg amt shf rt rd s
  | .mvnRegsh _ shf rt rd rs => laneMvnRegsh shf rt rd rs s
  | .mvnLong _ rd imm => laneMvnLong rd imm
  | .sxbShort _ lo rot rd hi => laneSxbShort lo rot rd hi
  | .sxbReg _ amt shf rt rd => laneSxbReg amt shf rt rd s
  | .sxbRegsh _ shf rt rd rs => laneSxbRegsh shf rt rd rs s
  | .sxbLong _ rd imm => laneSxbLong rd imm
  | .sxhShort _ lo rot rd hi => laneSxhShort lo rot rd hi
  | .sxhReg _ amt shf rt rd => laneSxhReg amt shf rt rd s
  | .sxhRegsh _ shf rt rd rs => laneSxhRegsh shf rt rd rs s
  | .sxhLong _ rd imm => laneSxhLong rd imm
  | .cmpltuShort _ c rot pd rs => laneCmpltuShort c rot pd rs s
  | .cmpltuReg _ amt shf rt pd rs => laneCmpltuReg amt shf rt pd rs s
  | .cmpltuLong _ pd rs imm => laneCmpltuLong pd rs imm s
  | .cmpleuShort _ c rot pd rs => laneCmpleuShort c rot pd rs s
  | .cmpleuReg _ amt shf rt pd rs => laneCmpleuReg amt shf rt pd rs s
  | .cmpleuLong _ pd rs imm => laneCmpleuLong pd rs imm s
  | .cmpeqShort _ c rot pd rs => laneCmpeqShort c rot pd rs s
  | .cmpeqReg _ amt shf rt pd rs => laneCmpeqReg amt shf rt pd rs s
  | .cmpeqLong _ pd rs imm => laneCmpeqLong pd rs imm s
  | .cmpltsShort _ c rot pd rs => laneCmpltsShort c rot pd rs s
  | .cmpltsReg _ amt shf rt pd rs => laneCmpltsReg amt shf rt pd rs s
  | .cmpltsLong _ pd rs imm => laneCmpltsLong pd rs imm s
  | .cmplesShort _ c rot pd rs => laneCmplesShort c rot pd rs s
  | .cmplesReg _ amt shf rt pd rs => laneCmplesReg amt shf rt pd rs s
  | .cmplesLong _ pd rs imm => laneCmplesLong pd rs imm s
  | .cmpbsShort _ c rot pd rs => laneCmpbsShort c rot pd rs s
  | .cmpbsReg _ amt shf rt pd rs => laneCmpbsReg amt shf rt pd rs s
  | .cmpbsLong _ pd rs imm => laneCmpbsLong pd rs imm s
  | .cmpbcShort _ c rot pd rs => laneCmpbcShort c rot pd rs s
  | .cmpbcReg _ amt shf rt pd rs => laneCmpbcReg amt shf rt pd rs s
  | .cmpbcLong _ pd rs imm => laneCmpbcLong pd rs imm s
  | .lb _ off rd rs => laneLb off rd rs k s
  | .lh _ off rd rs => laneLh off rd rs k s
  | .lw _ off rd rs => laneLw off rd rs k s
  | .ll _ off rd rs => laneLl off rd rs k s
  | .sb _ off m rt rs => laneSb off m rt rs k s
  | .sh _ off m rt rs => laneSh off m rt rs k s
  | .sw _ off m rt rs => laneSw off m rt rs k s
  | .sc _ off m rt rs => laneSc off m rt rs k s
  | .bImm _ off => laneBImm off s
  | .bReg _ off rs => laneBReg off rs s
  | .blImm _ off => laneBlImm off s
  | .blReg _ off rs => laneBlReg off rs s
  | .brk _ => laneBrk
  | .syscall _ => laneSyscall
  | .fence _ => laneFence
  | .eret _ => laneEret s
  | .flush _ c ty rs => laneFlush c ty rs k s
  | .mfc _ rd cprs => laneMfc rd cprs s
  | .mtc _ cprd rs => laneMtc cprd rs s
  | .mult _ sg rt rd rs => laneMult sg rt rd rs s
  | .div _ sg rt wide rd rs => laneDiv sg rt wide rd rs s
  | .mfhi _ rd => laneMfhi rd s
  | .mthi _ rs => laneMthi rs s

/-- What a slot contributes (40_packet_execution.md R111 to R113). -/
def slotLane (k : Fin 4) (x : Slot) (s : State) : Lane :=
  match x with
  | .operand => Lane.idle
  | .undefined p _ => Lane.illegal.gate p s
  | .instr i => Lane.gate i.pred (if mayOccupy i k then issue i k s else (issue i k s).misplaced) s

/-- Execute a packet (40_packet_execution.md R118 steps 4 to 8). -/
def runPacket (pk : Packet) (s : State) : Host.Outcome State Fault Refusal :=
  finishPacket (slotLane 0 pk.slot0 s) (slotLane 1 pk.slot1 s) (slotLane 2 pk.slot2 s) (slotLane 3 pk.slot3 s) s

/-- The packet fetched from physical address `pa` (40_packet_execution.md R110, 20_memory.md R43). -/
def fetchedPacket (s : State) (pa : Word) : Packet :=
  decodePacket (fetchWord s 0 pa) (fetchWord s 1 (pa + 4#32)) (fetchWord s 2 (pa + 8#32)) (fetchWord s 3 (pa + 12#32))

/-- The state in which the fetched packet executes: the fetch's walk may have left an entry in the instruction TLB. -/
def afterFetch (s : State) : State := s.fillOption .inst (fetchTranslation s).fill

/-- Between two steps: one more step has been taken, the environment drives `irq` (10_state.md R31, 60_exceptions.md
R232), and each TLB may have lost entries (20_memory.md R58). -/
def State.betweenSteps (s : State) : State :=
  { s with
    tick := s.tick + 1
    irq := Config.irqLevel s.tick
    dtlb := s.dtlb.filter (Config.tlbKeeps s.tick .data)
    itlb := s.itlb.filter (Config.tlbKeeps s.tick .inst) }

/-- A next state goes on between steps; a stop stays. -/
def closeStep (o : Host.Outcome State Fault Refusal) : Host.Outcome State Fault Refusal :=
  match o with
  | .next t => .next t.betweenSteps
  | .fault f => .fault f
  | .refused r => .refused r

/-- An interrupt is taken at this packet boundary (60_exceptions.md R232). -/
def State.interrupted (s : State) : Bool := s.ie && s.irq

/-- What the core does in one step (40_packet_execution.md R118): take an interrupt, or fetch a packet and take the
fetch's exception or execute it. -/
def coreStep (s : State) : Host.Outcome State Fault Refusal :=
  if s.interrupted then .next (trapNoLane codeInterrupt s)
  else
    match (fetchTranslation s).result with
    | .error f => .next (trapNoLane (fetchFaultCode f) (afterFetch s))
    | .ok pa => runPacket (fetchedPacket s pa) (afterFetch s)

/-! Placing an instruction where the next step fetches it (log 30). -/

/-- Put a word into RAM from outside the core, so that every later access and fetch reads it. -/
def State.placeWord (s : State) (pa w : Word) : State :=
  { s with
    mem := s.mem.writeSized pa.toNat .word w
    l2Old := s.l2Old.filter (fun v => decide (v.1 ≠ pa.toNat))
    l1iOld := s.l1iOld.filter (fun v => decide (v.1 ≠ pa.toNat)) }

/-- A filler: `!P3 -> P3 <- R0 <u 0`. Its Pred 0b111 never executes (40_packet_execution.md R113), as that of the filler
0xE0000000 of 30_encoding.md R109, and it has no destination, so that it does nothing for either DUPDEST_DYNAMIC. -/
def fillerWord : Word := 0xE0001C60#32

/-- Place the instruction whose first word is `w0` in slot 0 of the packet at physical address `pa`: its operand `w1`
in slot 1 if it is a long-immediate instruction, fillers elsewhere. -/
def State.placeInstr (s : State) (pa w0 w1 : Word) : State :=
  (((s.placeWord pa w0).placeWord (pa + 4#32) (if isLong w0 then w1 else fillerWord)).placeWord (pa + 8#32)
    fillerWord).placeWord (pa + 12#32) fillerWord

end Sys2Proof.Machine
end

