-- ==== Sys2Proof/Machine/Step.lean ====
section
/-! DEFINITION. One step of the machine (40_packet_execution.md R118), and placing the instruction it runs next. -/

namespace Sys2Proof.Machine

/-- One step: what the core does, then what happens between steps. -/
def step (s : State) : Host.Outcome State Fault Refusal := closeStep (coreStep s)

/-- `s` with the instruction whose `nbits` bits are `w` placed where the next step fetches: in slot 0 of the packet at
pc, with its operand word in slot 1 if it has one and fillers elsewhere, and no interrupt pending (log 30). Where the
fetch would fail, or would not read RAM, nothing can be placed. -/
def State.withFetchWord (s : State) (nbits w : Nat) : State :=
  match (fetchTranslation s).result with
  | .error _ => s
  | .ok pa =>
    if isRam pa then { s.placeInstr pa (tableWords nbits w).1 (tableWords nbits w).2 with irq := false } else s

end Sys2Proof.Machine
end

