-- ==== Sys2Proof/Safety.lean ====
section
/-! DEFINITION. The terms that claims about runs use: the invariant of the state, frames, and the effects
of the usual shapes of instruction. -/

namespace Sys2Proof.Machine

/-- Every address that a list of older values names is that of an aligned word of RAM. -/
def Versions.InRam (vs : Versions) : Prop := ∀ v ∈ vs, v.1 % 4 = 0 ∧ v.1 < 0x20000000

/-- The invariant of the state. -/
structure State.Inv (s : State) : Prop where
  /-- pc is a packet address (10_state.md R13). -/
  pcAligned : s.pc.extractLsb' 0 4 = 0#4
  /-- PFLAGS bits 31:2 are 0 (10_state.md R20). -/
  pflagsReserved : s.pflags.extractLsb' 2 30 = 0#30
  /-- RAM is in its canonical form. -/
  memWf : s.mem.wf = true
  /-- Only RAM is listed (20_memory.md R62). -/
  memInRam : ∀ c ∈ s.mem, c.1 < 0x20000000
  /-- The older values that walks may see are of words of RAM. -/
  l2InRam : s.l2Old.InRam
  /-- The older values that fetches may see are of words of RAM. -/
  l1iInRam : s.l1iOld.InRam
  /-- Whatever older value L2 may still hold, a fetch may still see (20_memory.md R68). -/
  fetchSeesL2 : ∀ v ∈ s.l2Old, v ∈ s.l1iOld

/-! What an instruction leaves unchanged. In all of these `s` is the state before and `t` the state after. -/

/-- Every byte of RAM reads as before, whatever L2 and the instruction fetch may still see of older values is as before,
and no access to the peripheral region has been recorded. -/
def State.keepsMemory (s t : State) : Prop :=
  (∀ a, t.mem.read a = s.mem.read a) ∧ t.l2Old = s.l2Old ∧ t.l1iOld = s.l1iOld ∧ t.periphLog = s.periphLog

/-- Both TLBs are as before. -/
def State.keepsTlbs (s t : State) : Prop := t.dtlb = s.dtlb ∧ t.itlb = s.itlb

/-- Every general register is as before. -/
def State.keepsRegs (s t : State) : Prop := ∀ r, t.readReg r = s.readReg r

/-- Every general register but `rd` is as before. -/
def State.keepsRegsBut (s t : State) (rd : Reg) : Prop := ∀ r, r ≠ rd → t.readReg r = s.readReg r

/-- Every predicate register is as before. -/
def State.keepsPreds (s t : State) : Prop := ∀ n, t.readPred n = s.readPred n

/-- The mode and every coprocessor register are as before. -/
def State.keepsControl (s t : State) : Prop :=
  t.mode = s.mode ∧ t.pflags = s.pflags ∧ ∀ c : Cpr, t.readCpr c = s.readCpr c

/-- The interrupt request input and the count of steps are as before (they change between steps only), and so are the
parameters, which never change. -/
def State.keepsEnvironment (s t : State) : Prop := t.irq = s.irq ∧ t.tick = s.tick ∧ t.params = s.params

/-- Everything but the general registers, the predicates, `ovf`, the link bit, memory and the TLBs is as an instruction
that goes on to the next packet leaves it (10_state.md R14). -/
structure State.Advanced (s t : State) : Prop where
  pc : t.pc = s.pc + 16#32
  control : s.keepsControl t
  environment : s.keepsEnvironment t

/-- The one effect is `x[rd] <- v`. -/
structure State.WroteReg (s t : State) (rd : Reg) (v : Word) : Prop where
  value : t.readReg rd = v
  regs : s.keepsRegsBut t rd
  preds : s.keepsPreds t
  ovf : t.ovf = s.ovf
  link : t.link = s.link
  memory : s.keepsMemory t
  tlbs : s.keepsTlbs t
  rest : s.Advanced t

/-- The one effect is `p[pd] <- b`; where `pd` is 3 there is none, and P3 still reads 1 (10_state.md R15). -/
structure State.WrotePred (s t : State) (pd : PredReg) (b : Bool) : Prop where
  value : pd ≠ 3 → t.readPred pd = b
  p3 : t.readPred 3 = true
  preds : ∀ n, n ≠ pd → t.readPred n = s.readPred n
  regs : s.keepsRegs t
  ovf : t.ovf = s.ovf
  link : t.link = s.link
  memory : s.keepsMemory t
  tlbs : s.keepsTlbs t
  rest : s.Advanced t

/-- The only effects are on `x[rd]` and `ovf`. -/
structure State.OnlyRegOvf (s t : State) (rd : Reg) : Prop where
  regs : s.keepsRegsBut t rd
  preds : s.keepsPreds t
  link : t.link = s.link
  memory : s.keepsMemory t
  tlbs : s.keepsTlbs t
  rest : s.Advanced t

/-- pc is `target`, and nothing else has changed but perhaps a general register. -/
structure State.Jumped (s t : State) (target : Word) : Prop where
  pc : t.pc = target
  preds : s.keepsPreds t
  ovf : t.ovf = s.ovf
  link : t.link = s.link
  control : s.keepsControl t
  memory : s.keepsMemory t
  tlbs : s.keepsTlbs t
  environment : s.keepsEnvironment t

/-- A load's effect on the core's own state: `x[rd] <- v`, the link bit as given, and the entry that its table walk, if
any, leaves in the data TLB (20_memory.md R58). Memory is not part of it. -/
structure State.LoadedReg (s t : State) (rd : Reg) (v : Word) (link : Bool) (fill : Option TlbEntry) : Prop where
  value : t.readReg rd = v
  regs : s.keepsRegsBut t rd
  preds : s.keepsPreds t
  ovf : t.ovf = s.ovf
  link : t.link = link
  dtlb : t.dtlb = (s.fillOption .data fill).dtlb
  itlb : t.itlb = s.itlb
  rest : s.Advanced t

/-- The bytes from `a` on are the low `n` bytes of `v`, the lowest first, and every other byte is as before
(20_memory.md R44). -/
def State.storedBytes (s t : State) (a n : Nat) (v : Word) : Prop :=
  (∀ k, k < n → t.mem.read (a + k) = v.extractLsb' (8 * k) 8) ∧
  (∀ x, x < a ∨ a + n ≤ x → t.mem.read x = s.mem.read x)

/-- The value that the word at `a` had before stays visible to table walks and to fetches (20_memory.md R53, R68). -/
def State.keptOldWord (s t : State) (a : Nat) : Prop :=
  (∀ v, v ∈ t.l2Old ↔ v = (a, s.mem.readWord a) ∨ v ∈ s.l2Old) ∧
  (∀ v, v ∈ t.l1iOld ↔ v = (a, s.mem.readWord a) ∨ v ∈ s.l1iOld)

/-- What a store leaves unchanged besides memory and the predicates: all but the link bit, as given, and the entry that
its table walk leaves in the data TLB. -/
structure State.StoreFrame (s t : State) (link : Bool) (fill : Option TlbEntry) : Prop where
  regs : s.keepsRegs t
  ovf : t.ovf = s.ovf
  link : t.link = link
  dtlb : t.dtlb = (s.fillOption .data fill).dtlb
  itlb : t.itlb = s.itlb
  rest : s.Advanced t

/-- `t` is the state after trap entry from `s` with the codes and addresses given (60_exceptions.md R235, R236, R237):
EPC's fields, the EC and EA registers, kernel mode, IE = 0 and no other bit of PFLAGS changed, link = 0, pc at EHA with
its low four bits 0, and nothing else changed. Nothing is said of the TLBs. EPC holds M and IF where EPC_M_BIT and
EPC_IF_BIT, parameters of the machine, say. -/
structure State.Trapped (s t : State) (c0 c1 c2 c3 a0 a1 : Word) : Prop where
  epcPc : t.epc.extractLsb' 4 28 = s.pc.extractLsb' 4 28
  epcZero : ∀ i : Fin 4, i ≠ s.params.epcMBit → i ≠ s.params.epcIfBit → t.epc.getLsbD i.val = false
  epcM : t.epc.getLsbD s.params.epcMBit.val = decide (s.mode = .kernel)
  epcIf : t.epc.getLsbD s.params.epcIfBit.val = s.pflags.getLsbD 0
  ec0 : t.ec0 = c0
  ec1 : t.ec1 = c1
  ec2 : t.ec2 = c2
  ec3 : t.ec3 = c3
  ea0 : t.ea0 = a0
  ea1 : t.ea1 = a1
  mode : t.mode = .kernel
  ie : t.pflags.getLsbD 0 = false
  pflags : t.pflags.extractLsb' 1 31 = s.pflags.extractLsb' 1 31
  link : t.link = false
  pcHigh : t.pc.extractLsb' 4 28 = s.eha.extractLsb' 4 28
  pcLow : t.pc.extractLsb' 0 4 = 0#4
  regs : s.keepsRegs t
  preds : s.keepsPreds t
  ovf : t.ovf = s.ovf
  ptb : t.ptb = s.ptb
  eha : t.eha = s.eha
  sp0 : t.sp0 = s.sp0
  sp1 : t.sp1 = s.sp1
  sp2 : t.sp2 = s.sp2
  sp3 : t.sp3 = s.sp3
  memory : s.keepsMemory t
  params : t.params = s.params

/-- Trap entry for one exception in slot `k`, 0 or 1, with its code and the address of its EA register. -/
def State.TrappedAt (s t : State) (k : Fin 4) (c ea : Word) : Prop :=
  s.Trapped t (if k = 0 then c else 0#32) (if k = 1 then c else 0#32) 0#32 0#32
    (if k = 0 then ea else s.ea0) (if k = 1 then ea else s.ea1)

/-- The EC code of a failed data access (60_exceptions.md R225, R226). -/
def specCode (f : MemFault) : Word := if f = .pageFault then 5#32 else 6#32

/-! Translation. -/

/-- The physical-address check in the words of 20_memory.md R64. -/
def specValid (pa : Word) : Except MemFault Word :=
  if pa.toNat < 0x20000000 ∨ (0x80000000 ≤ pa.toNat ∧ Config.periphValid pa = true) then .ok pa
  else .error .invalidPhysical

/-- The physical address is one that answers (20_memory.md R64). -/
def SpecAnswers (pa : Word) : Prop :=
  pa.toNat < 0x20000000 ∨ (0x80000000 ≤ pa.toNat ∧ Config.periphValid pa = true)

/-- `w` is what the table walk of an access may read at one level from `pa` (20_memory.md R49, R53): in RAM the stored
word or an older one that L2 may still hold, in the peripheral region a draw. -/
def State.EntryAt (s : State) (port : Port) (level : Nat) (pa w : Word) : Prop :=
  (pa.toNat < 0x20000000 → w = s.mem.readWord pa.toNat ∨ (pa.toNat, w) ∈ s.l2Old) ∧
  (0x80000000 ≤ pa.toNat → w = Config.periphEntry s.tick port level)

/-- `x` is a translation of `va` with PG = 1 (20_memory.md R54, R58): through an entry of the TLB for the page or through
a walk, whose entry it may leave; U is checked in user mode and W for a store, and `check` is applied to the physical
address; a walk that fails leaves no entry. -/
def State.TranslatesPaged (s : State) (tlb : List TlbEntry) (port : Port) (va : Word) (st : Bool)
    (check : Word → Except MemFault Word) (x : Translation) : Prop :=
  (∃ e, ((e ∈ tlb ∧ e.vpage = va.extractLsb' 12 20) ∨ walk s port va = .ok e) ∧
    (x.fill = none ∨ (walk s port va = .ok e ∧ x.fill = some e)) ∧
    x.result =
      if (s.mode = .user ∧ e.u = false) ∨ (st = true ∧ e.w = false) then .error .pageFault
      else check (e.base ++ va.extractLsb' 0 12)) ∨
  (∃ f, walk s port va = .error f ∧ x = { fill := none, result := .error f })

/-! Packets. -/

/-- The slot of a packet by its number. -/
def slotAt (pk : Packet) (k : Fin 4) : Slot :=
  match k with
  | 0 => pk.slot0
  | 1 => pk.slot1
  | 2 => pk.slot2
  | 3 => pk.slot3

/-- What slot `k` of a packet contributes. -/
def laneAt (pk : Packet) (s : State) (k : Fin 4) : Lane := slotLane k (slotAt pk k) s

/-- Slot `k` of a packet holds `i`, and its other slots contribute nothing. -/
def Only (pk : Packet) (k : Fin 4) (i : Instr) (s : State) : Prop :=
  slotAt pk k = .instr i ∧ ∀ j, j ≠ k → laneAt pk s j = Lane.idle

/-- A slot that is no operand slot holds what its word `w` decodes to, the word after it being `next`: the instruction,
or the undefined encoding with the word's Pred field (30_encoding.md R81, R103, 40_packet_execution.md R111). -/
def HoldsWord (x : Slot) (w next : Word) : Prop :=
  (∀ i, decode w next = .ok i → x = .instr i) ∧
  (∀ e, decode w next = .error e →
    ∃ p : Pred, x = .undefined p e ∧ p.reg.val = (w.extractLsb' 30 2).toNat ∧ p.inv = w.getLsbD 29)

/-- Two accesses of slots 0 and 1 whose outcome 20_memory.md R71 leaves undefined, in its words. -/
def SpecConflict (a b : Access) : Prop :=
  ((a.pa.toNat < b.pa.toNat + b.size.bytes ∧ b.pa.toNat < a.pa.toNat + a.size.bytes) ∧
    (a.kind.isStore = true ∨ b.kind.isStore = true)) ∨
  (a.kind.isLl = true ∧ b.kind = .sc) ∨ (a.kind = .sc ∧ b.kind.isLl = true) ∨
  (a.kind = .sc ∧ b.kind.isStore = true) ∨ (a.kind.isStore = true ∧ b.kind = .sc)

/-- Slot `k` of a packet holds a store or an SC that executes and whose M bit is 1 (30_encoding.md R104). -/
def HasStoreWithMBit (pk : Packet) (s : State) (k : Fin 4) : Prop :=
  ∃ (p : Pred) (off : BitVec 11) (rt rs : Reg), s.holds p = true ∧
    ∃ i ∈ [Instr.sb, Instr.sh, Instr.sw, Instr.sc], slotAt pk k = .instr (i p off true rt rs)

/-- Slot `k` of a packet holds a FLUSH that executes and whose C bit is 1 (30_encoding.md R104). -/
def HasFlushWithCBit (pk : Packet) (s : State) (k : Fin 4) : Prop :=
  ∃ (p : Pred) (ty : FlushType) (rs : Reg), s.holds p = true ∧ slotAt pk k = .instr (.flush p true ty rs)

/-- Slot `k` of a packet holds a memory instruction that executes and whose access is `a`. -/
def HasAccess (pk : Packet) (s : State) (k : Fin 4) (a : Access) : Prop :=
  ∃ i, slotAt pk k = .instr i ∧ i.format.type = .memory ∧ s.holds i.pred = true ∧ (laneAt pk s k).access = some a

/-- Slot `k` has a destination that another slot has too (40_packet_execution.md R115). -/
def duplicated (pk : Packet) (s : State) (k : Fin 4) : Prop :=
  ∃ j, j ≠ k ∧ ∃ d, d ∈ (laneAt pk s k).dests ∧ d ∈ (laneAt pk s j).dests

/-- The EC register of lane `k`. -/
def State.errorCode (s : State) (k : Fin 4) : Word :=
  match k with
  | 0 => s.ec0
  | 1 => s.ec1
  | 2 => s.ec2
  | 3 => s.ec3

/-- The packet whose slot 0 holds an instruction and whose other slots issue nothing. -/
def alonePacket (i : Instr) : Packet := { slot0 := .instr i, slot1 := .operand, slot2 := .operand, slot3 := .operand }

/-! Arithmetic in the words of 00_scope.md section 5.1 and 40_packet_execution.md R123, on natural numbers and
integers. -/

/-- `ror32(v, n)` for n at most 31: `(u(v) >> n) | (v << (32 - n)) mod 2^32`. -/
def specRor (v : Word) (n : Nat) : Word := BitVec.ofNat 32 (v.toNat / 2 ^ n + v.toNat * 2 ^ (32 - n))

/-- CMPBC in the words of 42_compare.md R156, for each reading: some bit that `b` selects is clear in `a`, or every one
is. -/
def specBc (reading : CmpbcReading) (a b : Word) : Bool :=
  match reading with
  | .anyClear => decide (∃ k : Fin 32, a.getLsbD k = false ∧ b.getLsbD k = true)
  | .allClear => decide (∀ k : Fin 32, b.getLsbD k = true → a.getLsbD k = false)

/-- The four shifts by n at most 31. -/
def specShift (shf : Shf) (v : Word) (n : Nat) : Word :=
  match shf with
  | .lsl => BitVec.ofNat 32 (v.toNat * 2 ^ n)
  | .lsr => BitVec.ofNat 32 (v.toNat / 2 ^ n)
  | .asr => BitVec.ofInt 32 (v.toInt / 2 ^ n)
  | .ror => specRor v n

end Sys2Proof.Machine
end

