-- ==== Sys2Proof/Certificates/Slice0/Obligations.lean ====
section
/-! DEFINITION. The statements for the provers. Each docstring names the rules of spec/ that the statement formalises. In
all of them `s` is the state before and `t` the state after. -/

open Sys2Proof Sys2Proof.Machine

/-! Encoding (30_encoding.md). -/

/-- Decoding an encoded instruction gives it back, from words and from bytes, whatever follows it; and the encoded word
has the long format exactly when the instruction has an operand word (R82 to R94, R96, R105). -/
def Obligations.DecodeOfEncode : Prop :=
  ∀ (i : Instr) (after : Word),
    decode (encodeWord i) ((longOperand i).getD after) = .ok i ∧
    isLong (encodeWord i) = (longOperand i).isSome ∧
    decodeBytes (encodeBytes i ++ bytesOfWord after) = some i

/-- The example words of R130, R133, R137, R153, R160, R173, R176, R177, R191, R204, R205 decode to the instructions
they stand for. -/
def Obligations.ExampleWordsDecode : Prop :=
  decode 0xC0140061#32 0#32 = .ok (.addShort ⟨3, false⟩ 5#10 0#4 3 1) ∧
  decode 0xD0000CA6#32 0xDEADBEEF#32 = .ok (.orLong ⟨3, false⟩ 5 6 0xDEADBEEF#32) ∧
  decode 0xD020A023#32 0#32 = .ok (.movRegsh ⟨3, false⟩ .lsl 2 1 3) ∧
  decode 0xD0001E01#32 0xFFFFFFFF#32 = .ok (.cmpltsLong ⟨3, false⟩ 0 1 0xFFFFFFFF#32) ∧
  decode 0x19FFFFFF#32 0#32 = .ok (.bImm ⟨0, false⟩ 0x1FFFFFF#25) ∧
  decode 0xD2000C22#32 0#32 = .ok (.ll ⟨3, false⟩ 0#12 1 2) ∧
  decode 0xD3F8DB82#32 0#32 = .ok (.sw ⟨3, false⟩ 0x7FC#11 false 3 2) ∧
  decode 0xD2005C02#32 0#32 = .ok (.sc ⟨3, false⟩ 0#11 false 1 2) ∧
  decode 0xD198A061#32 0#32 = .ok (.div ⟨3, false⟩ true 2 true 3 1) ∧
  decode 0xD1500C02#32 0#32 = .ok (.flush ⟨3, false⟩ false .itlb 2) ∧
  decode 0xD16003F0#32 0#32 = .ok (.mfc ⟨3, false⟩ 31 16)

/-- The decoder refuses exactly the shapes of R103 (its last row, MFC and MTC with an undefined number, is an instruction
that raises the exception itself: UndefinedCprTraps). -/
def Obligations.UndefinedShapesRefused : Prop :=
  ∀ w next : Word,
    (∃ e, decode w next = .error e) ↔
      ((w.getLsbD 28 = false ∨ w.extractLsb' 26 3 = 0b101#3 ∨ w.extractLsb' 14 15 = 0b100000000000000#15) ∧
        (12 ≤ (w.extractLsb' 10 4).toNat ∨ (w.extractLsb' 10 4 = 7#4 ∧ w.extractLsb' 7 3 = 3#3))) ∨
      (w.extractLsb' 21 8 = 0b10000001#8 ∧
        ((w.extractLsb' 10 4).toNat < 8 ∨ 11 < (w.extractLsb' 10 4).toNat)) ∨
      (w.extractLsb' 24 5 = 0b10000#5 ∧ w.extractLsb' 21 3 = 0#3 ∧ w.extractLsb' 14 7 ≠ 0#7) ∨
      (w.extractLsb' 24 5 = 0b10000#5 ∧ 2 ≤ (w.extractLsb' 21 3).toNat) ∨
      (w.extractLsb' 24 5 = 0b10001#5 ∧
        (w.extractLsb' 20 4 = 0#4 ∨ 12 ≤ (w.extractLsb' 20 4).toNat))

/-- Slot decoding: a slot is an operand slot exactly when the slot before it is an instruction slot whose bits 28:14
are those of ALU_LONG, whatever any predicate; every other slot holds the instruction its word decodes to, or an
undefined encoding with the word's own Pred field (R81, R103, R105, R111). Slot 3 has no following word in the packet
(log 24). -/
def Obligations.OperandSlots : Prop :=
  ∀ w0 w1 w2 w3 : Word,
    (∀ w : Word, isLong w = true ↔ w.extractLsb' 14 15 = 0b100000000000000#15) ∧
    (decodePacket w0 w1 w2 w3).slot0 ≠ .operand ∧
    ((decodePacket w0 w1 w2 w3).slot1 = .operand ↔ isLong w0 = true) ∧
    ((decodePacket w0 w1 w2 w3).slot2 = .operand ↔ isLong w0 = false ∧ isLong w1 = true) ∧
    ((decodePacket w0 w1 w2 w3).slot3 = .operand ↔ (isLong w0 = true ∨ isLong w1 = false) ∧ isLong w2 = true) ∧
    HoldsWord (decodePacket w0 w1 w2 w3).slot0 w0 w1 ∧
    (isLong w0 = false → HoldsWord (decodePacket w0 w1 w2 w3).slot1 w1 w2) ∧
    (¬(isLong w0 = false ∧ isLong w1 = true) → HoldsWord (decodePacket w0 w1 w2 w3).slot2 w2 w3) ∧
    (¬((isLong w0 = true ∨ isLong w1 = false) ∧ isLong w2 = true) →
      ∃ next, HoldsWord (decodePacket w0 w1 w2 w3).slot3 w3 next)

/-! Operands (40_packet_execution.md section 2, 30_encoding.md section 8). -/

/-- The short immediates are the zero-extended constants rotated right by twice ROTATE (R106, R120, R121). -/
def Obligations.ShortImmediates : Prop :=
  ∀ (c : BitVec 10) (hi : BitVec 5) (rot : BitVec 4),
    shortImm10 c rot = specRor (BitVec.ofNat 32 c.toNat) (2 * rot.toNat) ∧
    shortImm15 hi c rot = specRor (BitVec.ofNat 32 (hi.toNat * 1024 + c.toNat)) (2 * rot.toNat)

/-- A register shifted by a constant 0 to 31, and that an amount of 0 leaves it for every type (R123). -/
def Obligations.ConstantShifts : Prop :=
  ∀ (shf : Shf) (amt : BitVec 5) (v : Word),
    shiftConst shf amt v = specShift shf v amt.toNat ∧ shiftConst shf 0#5 v = v

/-- A register shifted by the unsigned 32-bit amount in a register (R124). -/
def Obligations.RegisterShifts : Prop :=
  ∀ a v : Word,
    (∀ shf : Shf, a.toNat ≤ 31 → shiftReg shf a v = specShift shf v a.toNat) ∧
    (31 < a.toNat →
      shiftReg .lsl a v = 0#32 ∧ shiftReg .lsr a v = 0#32 ∧
      shiftReg .asr a v = (if v.getLsbD 31 = true then 0xFFFFFFFF#32 else 0#32) ∧
      shiftReg .ror a v = specRor v (a.toNat % 32))

/-- Branch byte offsets, load and store addresses, and the address bits that an access ignores (R45, R107, R108, R178,
R179). -/
def Obligations.OffsetsAndAddresses : Prop :=
  (∀ off : BitVec 25, branchImmOffset off = BitVec.ofInt 32 (16 * off.toInt)) ∧
  (∀ off : BitVec 20, branchRegOffset off = BitVec.ofInt 32 (16 * off.toInt)) ∧
  (∀ (base : Word) (off : BitVec 12), loadAddr base off = base + BitVec.ofInt 32 off.toInt) ∧
  (∀ (base : Word) (off : BitVec 11), storeAddr base off = base + BitVec.ofInt 32 off.toInt) ∧
  (∀ (sz : Size) (ea : Word), (sz.align ea).toNat = ea.toNat - ea.toNat % sz.bytes)

/-! ALU instructions (41_alu.md). -/

/-- ADD, SUB and RSB in their nine forms: the sum or difference modulo 2^32 and nothing else (R130, R134, R135). -/
def Obligations.AddSubRsbWrite : Prop :=
  ∀ (p : Pred) (s : State), s.holds p = true →
    (∀ x ∈ [(Instr.addShort, fun a b : Word => BitVec.ofNat 32 (a.toNat + b.toNat)),
            (Instr.subShort, fun a b : Word => BitVec.ofInt 32 ((a.toNat : Int) - b.toNat)),
            (Instr.rsbShort, fun a b : Word => BitVec.ofInt 32 ((b.toNat : Int) - a.toNat))],
      ∀ (c : BitVec 10) (rot : BitVec 4) (rd rs : Reg), ∃ t, exec (x.1 p c rot rd rs) s = .next t ∧
        s.WroteReg t rd (x.2 (s.readReg rs) (shortImm10 c rot))) ∧
    (∀ x ∈ [(Instr.addReg, fun a b : Word => BitVec.ofNat 32 (a.toNat + b.toNat)),
            (Instr.subReg, fun a b : Word => BitVec.ofInt 32 ((a.toNat : Int) - b.toNat)),
            (Instr.rsbReg, fun a b : Word => BitVec.ofInt 32 ((b.toNat : Int) - a.toNat))],
      ∀ (amt : BitVec 5) (shf : Shf) (rt rd rs : Reg), ∃ t, exec (x.1 p amt shf rt rd rs) s = .next t ∧
        s.WroteReg t rd (x.2 (s.readReg rs) (shiftConst shf amt (s.readReg rt)))) ∧
    (∀ x ∈ [(Instr.addLong, fun a b : Word => BitVec.ofNat 32 (a.toNat + b.toNat)),
            (Instr.subLong, fun a b : Word => BitVec.ofInt 32 ((a.toNat : Int) - b.toNat)),
            (Instr.rsbLong, fun a b : Word => BitVec.ofInt 32 ((b.toNat : Int) - a.toNat))],
      ∀ (rd rs : Reg) (imm : Word), ∃ t, exec (x.1 p rd rs imm) s = .next t ∧
        s.WroteReg t rd (x.2 (s.readReg rs) imm))

/-- AND, NOR, OR and XOR in their twelve forms: the bitwise result and nothing else (R131, R132, R133, R136). -/
def Obligations.BitwiseAluWrite : Prop :=
  ∀ (p : Pred) (s : State), s.holds p = true →
    (∀ x ∈ [(Instr.andShort, fun a b : Word => a &&& b), (Instr.norShort, fun a b : Word => ~~~(a ||| b)),
            (Instr.orShort, fun a b : Word => a ||| b), (Instr.xorShort, fun a b : Word => a ^^^ b)],
      ∀ (c : BitVec 10) (rot : BitVec 4) (rd rs : Reg), ∃ t, exec (x.1 p c rot rd rs) s = .next t ∧
        s.WroteReg t rd (x.2 (s.readReg rs) (shortImm10 c rot))) ∧
    (∀ x ∈ [(Instr.andReg, fun a b : Word => a &&& b), (Instr.norReg, fun a b : Word => ~~~(a ||| b)),
            (Instr.orReg, fun a b : Word => a ||| b), (Instr.xorReg, fun a b : Word => a ^^^ b)],
      ∀ (amt : BitVec 5) (shf : Shf) (rt rd rs : Reg), ∃ t, exec (x.1 p amt shf rt rd rs) s = .next t ∧
        s.WroteReg t rd (x.2 (s.readReg rs) (shiftConst shf amt (s.readReg rt)))) ∧
    (∀ x ∈ [(Instr.andLong, fun a b : Word => a &&& b), (Instr.norLong, fun a b : Word => ~~~(a ||| b)),
            (Instr.orLong, fun a b : Word => a ||| b), (Instr.xorLong, fun a b : Word => a ^^^ b)],
      ∀ (rd rs : Reg) (imm : Word), ∃ t, exec (x.1 p rd rs imm) s = .next t ∧
        s.WroteReg t rd (x.2 (s.readReg rs) imm))

/-- MOV, MVN, SXB and SXH in their sixteen forms: Op2, its complement, or its low byte or half-word with the sign
extended, and nothing else (R137, R138, R139, R140). -/
def Obligations.OneOperandAluWrite : Prop :=
  ∀ (p : Pred) (s : State), s.holds p = true →
    (∀ x ∈ [(Instr.movShort, fun b : Word => b), (Instr.mvnShort, fun b : Word => ~~~b),
            (Instr.sxbShort, fun b : Word => BitVec.ofInt 32 (b.extractLsb' 0 8).toInt),
            (Instr.sxhShort, fun b : Word => BitVec.ofInt 32 (b.extractLsb' 0 16).toInt)],
      ∀ (lo : BitVec 10) (rot : BitVec 4) (rd : Reg) (hi : BitVec 5), ∃ t, exec (x.1 p lo rot rd hi) s = .next t ∧
        s.WroteReg t rd (x.2 (shortImm15 hi lo rot))) ∧
    (∀ x ∈ [(Instr.movReg, fun b : Word => b), (Instr.mvnReg, fun b : Word => ~~~b),
            (Instr.sxbReg, fun b : Word => BitVec.ofInt 32 (b.extractLsb' 0 8).toInt),
            (Instr.sxhReg, fun b : Word => BitVec.ofInt 32 (b.extractLsb' 0 16).toInt)],
      ∀ (amt : BitVec 5) (shf : Shf) (rt rd : Reg), ∃ t, exec (x.1 p amt shf rt rd) s = .next t ∧
        s.WroteReg t rd (x.2 (shiftConst shf amt (s.readReg rt)))) ∧
    (∀ x ∈ [(Instr.movRegsh, fun b : Word => b), (Instr.mvnRegsh, fun b : Word => ~~~b),
            (Instr.sxbRegsh, fun b : Word => BitVec.ofInt 32 (b.extractLsb' 0 8).toInt),
            (Instr.sxhRegsh, fun b : Word => BitVec.ofInt 32 (b.extractLsb' 0 16).toInt)],
      ∀ (shf : Shf) (rt rd rs : Reg), ∃ t, exec (x.1 p shf rt rd rs) s = .next t ∧
        s.WroteReg t rd (x.2 (shiftReg shf (s.readReg rs) (s.readReg rt)))) ∧
    (∀ x ∈ [(Instr.movLong, fun b : Word => b), (Instr.mvnLong, fun b : Word => ~~~b),
            (Instr.sxbLong, fun b : Word => BitVec.ofInt 32 (b.extractLsb' 0 8).toInt),
            (Instr.sxhLong, fun b : Word => BitVec.ofInt 32 (b.extractLsb' 0 16).toInt)],
      ∀ (rd : Reg) (imm : Word), ∃ t, exec (x.1 p rd imm) s = .next t ∧ s.WroteReg t rd (x.2 imm))

/-! Compares (42_compare.md). -/

/-- CMPLTU, CMPLEU, CMPEQ, CMPLTS, CMPLES and CMPBS in their eighteen forms: the one predicate written, nothing when it
is P3 (R150 to R155). -/
def Obligations.ComparesWrite : Prop :=
  ∀ (p : Pred) (s : State), s.holds p = true →
    (∀ x ∈ [(Instr.cmpltuShort, fun a b : Word => decide (a.toNat < b.toNat)),
            (Instr.cmpleuShort, fun a b : Word => decide (a.toNat ≤ b.toNat)),
            (Instr.cmpeqShort, fun a b : Word => decide (a.toNat = b.toNat)),
            (Instr.cmpltsShort, fun a b : Word => decide (a.toInt < b.toInt)),
            (Instr.cmplesShort, fun a b : Word => decide (a.toInt ≤ b.toInt)),
            (Instr.cmpbsShort, fun a b : Word => decide (∃ k : Fin 32, a.getLsbD k = true ∧ b.getLsbD k = true))],
      ∀ (c : BitVec 10) (rot : BitVec 4) (pd : PredReg) (rs : Reg), ∃ t, exec (x.1 p c rot pd rs) s = .next t ∧
        s.WrotePred t pd (x.2 (s.readReg rs) (shortImm10 c rot))) ∧
    (∀ x ∈ [(Instr.cmpltuReg, fun a b : Word => decide (a.toNat < b.toNat)),
            (Instr.cmpleuReg, fun a b : Word => decide (a.toNat ≤ b.toNat)),
            (Instr.cmpeqReg, fun a b : Word => decide (a.toNat = b.toNat)),
            (Instr.cmpltsReg, fun a b : Word => decide (a.toInt < b.toInt)),
            (Instr.cmplesReg, fun a b : Word => decide (a.toInt ≤ b.toInt)),
            (Instr.cmpbsReg, fun a b : Word => decide (∃ k : Fin 32, a.getLsbD k = true ∧ b.getLsbD k = true))],
      ∀ (amt : BitVec 5) (shf : Shf) (rt : Reg) (pd : PredReg) (rs : Reg),
        ∃ t, exec (x.1 p amt shf rt pd rs) s = .next t ∧
          s.WrotePred t pd (x.2 (s.readReg rs) (shiftConst shf amt (s.readReg rt)))) ∧
    (∀ x ∈ [(Instr.cmpltuLong, fun a b : Word => decide (a.toNat < b.toNat)),
            (Instr.cmpleuLong, fun a b : Word => decide (a.toNat ≤ b.toNat)),
            (Instr.cmpeqLong, fun a b : Word => decide (a.toNat = b.toNat)),
            (Instr.cmpltsLong, fun a b : Word => decide (a.toInt < b.toInt)),
            (Instr.cmplesLong, fun a b : Word => decide (a.toInt ≤ b.toInt)),
            (Instr.cmpbsLong, fun a b : Word => decide (∃ k : Fin 32, a.getLsbD k = true ∧ b.getLsbD k = true))],
      ∀ (pd : PredReg) (rs : Reg) (imm : Word), ∃ t, exec (x.1 p pd rs imm) s = .next t ∧
        s.WrotePred t pd (x.2 (s.readReg rs) imm))

/-- CMPBC in its three forms, in the reading that the parameter CMPBC_READING names (R156, 90_conflicts.md C3): 1 when some
bit selected by Op2 is 0 (`any_clear`, the default, log 16), or when every one is (`all_clear`). -/
def Obligations.CmpbcWrites : Prop :=
  ∀ (p : Pred) (s : State), s.holds p = true →
    (∀ (c : BitVec 10) (rot : BitVec 4) (pd : PredReg) (rs : Reg), ∃ t, exec (.cmpbcShort p c rot pd rs) s = .next t ∧
      s.WrotePred t pd (specBc s.params.cmpbcReading (s.readReg rs) (shortImm10 c rot))) ∧
    (∀ (amt : BitVec 5) (shf : Shf) (rt : Reg) (pd : PredReg) (rs : Reg),
      ∃ t, exec (.cmpbcReg p amt shf rt pd rs) s = .next t ∧
        s.WrotePred t pd (specBc s.params.cmpbcReading (s.readReg rs) (shiftConst shf amt (s.readReg rt)))) ∧
    (∀ (pd : PredReg) (rs : Reg) (imm : Word), ∃ t, exec (.cmpbcLong p pd rs imm) s = .next t ∧
      s.WrotePred t pd (specBc s.params.cmpbcReading (s.readReg rs) imm))

/-! Memory instructions (44_load_store.md, 20_memory.md). -/

/-- LB, LH, LW and LL from RAM, in slot 0 and in slot 1: the little-endian bytes at the translated address, zero-extended,
into Rd; LL sets the link bit; every byte of memory is unchanged (R44, R57, R112, R170 to R173). -/
def Obligations.LoadsReadRam : Prop :=
  ∀ (p : Pred) (off : BitVec 12) (rd rs : Reg) (s : State) (pa : Word) (k : Fin 4),
    k.val ≤ 1 → s.holds p = true → isRam pa = true →
    ∀ y ∈ [(Instr.lb, Size.byte, false, (s.mem.read pa.toNat).toNat),
        (Instr.lh, Size.half, false, (s.mem.read pa.toNat).toNat + 2 ^ 8 * (s.mem.read (pa.toNat + 1)).toNat),
        (Instr.lw, Size.word, false,
          (s.mem.read pa.toNat).toNat + 2 ^ 8 * (s.mem.read (pa.toNat + 1)).toNat +
            2 ^ 16 * (s.mem.read (pa.toNat + 2)).toNat + 2 ^ 24 * (s.mem.read (pa.toNat + 3)).toNat),
        (Instr.ll, Size.word, true,
          (s.mem.read pa.toNat).toNat + 2 ^ 8 * (s.mem.read (pa.toNat + 1)).toNat +
            2 ^ 16 * (s.mem.read (pa.toNat + 2)).toNat + 2 ^ 24 * (s.mem.read (pa.toNat + 3)).toNat)],
      (dataTranslation s k y.2.1 (loadAddr (s.readReg rs) off) false).result = .ok pa →
      ∃ t, (k = 0 → exec (y.1 p off rd rs) s = .next t) ∧
        (∀ pk, Only pk k (y.1 p off rd rs) s → runPacket pk s = .next t) ∧
        s.LoadedReg t rd (BitVec.ofNat 32 y.2.2.2) (y.2.2.1 || s.link)
          (dataTranslation s k y.2.1 (loadAddr (s.readReg rs) off) false).fill ∧
        s.keepsMemory t

/-- SB, SH and SW with M = 0 to RAM, in slot 0 and in slot 1: the low bytes of Rt at the translated address, every other
byte unchanged, no register or predicate written, and the word's old value still visible to walks and fetches (R44, R53,
R57, R68, R112, R174 to R176). -/
def Obligations.StoresWriteRam : Prop :=
  ∀ y ∈ [(Instr.sb, Size.byte, 1), (Instr.sh, Size.half, 2), (Instr.sw, Size.word, 4)],
    ∀ (p : Pred) (off : BitVec 11) (rt rs : Reg) (s : State) (pa : Word) (k : Fin 4),
      k.val ≤ 1 → s.holds p = true → isRam pa = true →
      (dataTranslation s k y.2.1 (storeAddr (s.readReg rs) off) true).result = .ok pa →
      ∃ t, (k = 0 → exec (y.1 p off false rt rs) s = .next t) ∧
        (∀ pk, Only pk k (y.1 p off false rt rs) s → runPacket pk s = .next t) ∧
        s.storedBytes t pa.toNat y.2.2 (s.readReg rt) ∧
        s.keptOldWord t (4 * (pa.toNat / 4)) ∧
        t.periphLog = s.periphLog ∧
        s.keepsPreds t ∧
        s.StoreFrame t s.link (dataTranslation s k y.2.1 (storeAddr (s.readReg rs) off) true).fill

/-- SC with M = 0, in slot 0 and in slot 1, its address checked as a store's whatever the link bit (R177, log 26): with the
link bit set it stores the word and writes 1 to P0; with the link bit clear it stores nothing and writes 0 to P0; either
way the link bit is cleared (R18, R112, R177). -/
def Obligations.StoreConditional : Prop :=
  ∀ (p : Pred) (off : BitVec 11) (rt rs : Reg) (s : State) (pa : Word) (k : Fin 4), k.val ≤ 1 → s.holds p = true →
    (s.link = true → isRam pa = true →
      (dataTranslation s k .word (storeAddr (s.readReg rs) off) true).result = .ok pa →
      ∃ t, (k = 0 → exec (.sc p off false rt rs) s = .next t) ∧
        (∀ pk, Only pk k (.sc p off false rt rs) s → runPacket pk s = .next t) ∧
        s.storedBytes t pa.toNat 4 (s.readReg rt) ∧
        s.keptOldWord t (4 * (pa.toNat / 4)) ∧
        t.periphLog = s.periphLog ∧
        t.readPred 0 = true ∧ (∀ n, n ≠ 0 → t.readPred n = s.readPred n) ∧
        s.StoreFrame t false (dataTranslation s k .word (storeAddr (s.readReg rs) off) true).fill) ∧
    (s.link = false →
      (dataTranslation s k .word (storeAddr (s.readReg rs) off) true).result = .ok pa →
      ∃ t, (k = 0 → exec (.sc p off false rt rs) s = .next t) ∧
        (∀ pk, Only pk k (.sc p off false rt rs) s → runPacket pk s = .next t) ∧
        s.keepsMemory t ∧
        t.readPred 0 = false ∧ (∀ n, n ≠ 0 → t.readPred n = s.readPred n) ∧
        s.StoreFrame t false (dataTranslation s k .word (storeAddr (s.readReg rs) off) true).fill)

/-- A data access whose translation fails takes the trap in the lane of its slot, 0 or 1: code 5 for a page fault and 6 for
an invalid physical address in that lane's EC register, the effective address before alignment in its EA register, and
no effect of the instruction (R57, R225, R226, R237). SC is checked as a store, W included, whatever the link bit (R177,
R225; log 26 names the words of R54 that differ). -/
def Obligations.MemoryFaultsTrap : Prop :=
  ∀ (p : Pred) (s : State) (f : MemFault) (k : Fin 4), k.val ≤ 1 → s.holds p = true →
    (∀ y ∈ [(Instr.lb, Size.byte), (Instr.lh, Size.half), (Instr.lw, Size.word), (Instr.ll, Size.word)],
      ∀ (off : BitVec 12) (rd rs : Reg),
        (dataTranslation s k y.2 (loadAddr (s.readReg rs) off) false).result = .error f →
        ∃ t, (k = 0 → exec (y.1 p off rd rs) s = .next t) ∧
          (∀ pk, Only pk k (y.1 p off rd rs) s → runPacket pk s = .next t) ∧
          s.TrappedAt t k (specCode f) (loadAddr (s.readReg rs) off)) ∧
    (∀ y ∈ [(Instr.sb, Size.byte), (Instr.sh, Size.half), (Instr.sw, Size.word), (Instr.sc, Size.word)],
      ∀ (off : BitVec 11) (rt rs : Reg),
        (dataTranslation s k y.2 (storeAddr (s.readReg rs) off) true).result = .error f →
        ∃ t, (k = 0 → exec (y.1 p off false rt rs) s = .next t) ∧
          (∀ pk, Only pk k (y.1 p off false rt rs) s → runPacket pk s = .next t) ∧
          s.TrappedAt t k (specCode f) (storeAddr (s.readReg rs) off))

/-- Loads and stores whose address translates to the peripheral region, in slot 0 and in slot 1, with PG = 0 and with
PG = 1: where the physical address answers, a load draws a value of its width, a store, and an SC with the link bit set,
sends its low bytes, each is recorded as one event and no byte of RAM changes; where it does not, the access traps. With
PG = 0 an address is its own translation (R49, R50, R63, R64, R112, R177; which addresses answer and what a load draws
are free: log 10, log 11). -/
def Obligations.PeripheralAccesses : Prop :=
  (∀ (p : Pred) (s : State) (ea pa : Word) (x : Translation) (k : Fin 4),
    k.val ≤ 1 → s.holds p = true → x.result = .ok pa → 0x80000000 ≤ pa.toNat →
    (∀ y ∈ [(Instr.lb, Size.byte, false), (Instr.lh, Size.half, false), (Instr.lw, Size.word, false),
            (Instr.ll, Size.word, true)],
      ∀ (off : BitVec 12) (rd rs : Reg), ea = loadAddr (s.readReg rs) off →
        x = translate s s.dtlb (.lane k) (y.2.1.align ea) false →
        ∃ t, (k = 0 → exec (y.1 p off rd rs) s = .next t) ∧
          (∀ pk, Only pk k (y.1 p off rd rs) s → runPacket pk s = .next t) ∧
          if Config.periphValid pa = true then
            ∃ v, s.LoadedReg t rd v (y.2.2 || s.link) x.fill ∧ v.toNat < 2 ^ (8 * y.2.1.bytes) ∧
              (∀ a, t.mem.read a = s.mem.read a) ∧ t.l2Old = s.l2Old ∧ t.l1iOld = s.l1iOld ∧
              t.periphLog = s.periphLog ++ [.load pa y.2.1 v]
          else s.TrappedAt t k 6#32 ea) ∧
    (∀ y ∈ [(Instr.sb, Size.byte), (Instr.sh, Size.half), (Instr.sw, Size.word)],
      ∀ (off : BitVec 11) (rt rs : Reg), ea = storeAddr (s.readReg rs) off →
        x = translate s s.dtlb (.lane k) (y.2.align ea) true →
        ∃ t, (k = 0 → exec (y.1 p off false rt rs) s = .next t) ∧
          (∀ pk, Only pk k (y.1 p off false rt rs) s → runPacket pk s = .next t) ∧
          if Config.periphValid pa = true then
            ∃ v, s.StoreFrame t s.link x.fill ∧ s.keepsPreds t ∧
              v.toNat = (s.readReg rt).toNat % 2 ^ (8 * y.2.bytes) ∧
              (∀ a, t.mem.read a = s.mem.read a) ∧ t.l2Old = s.l2Old ∧ t.l1iOld = s.l1iOld ∧
              t.periphLog = s.periphLog ++ [.store pa y.2 v]
          else s.TrappedAt t k 6#32 ea) ∧
    (∀ (off : BitVec 11) (rt rs : Reg), s.link = true → ea = storeAddr (s.readReg rs) off →
      x = translate s s.dtlb (.lane k) (Size.word.align ea) true →
      ∃ t, (k = 0 → exec (.sc p off false rt rs) s = .next t) ∧
        (∀ pk, Only pk k (.sc p off false rt rs) s → runPacket pk s = .next t) ∧
        if Config.periphValid pa = true then
          s.StoreFrame t false x.fill ∧ t.readPred 0 = true ∧ (∀ n, n ≠ 0 → t.readPred n = s.readPred n) ∧
            (∀ a, t.mem.read a = s.mem.read a) ∧ t.l2Old = s.l2Old ∧ t.l1iOld = s.l1iOld ∧
            t.periphLog = s.periphLog ++ [.store pa .word (s.readReg rt)]
        else s.TrappedAt t k 6#32 ea)) ∧
  (∀ (s : State) (tlb : List TlbEntry) (port : Port) (va : Word) (st : Bool), s.pg = false →
    translate s tlb port va st = { fill := none, result := .ok va })

/-- A store with M = 1 and a FLUSH with C = 1 are refused: neither a result nor a fault (R104). -/
def Obligations.UnknownBitsRefused : Prop :=
  ∀ (p : Pred) (s : State), s.holds p = true →
    (∀ x ∈ [Instr.sb, Instr.sh, Instr.sw, Instr.sc], ∀ (off : BitVec 11) (rt rs : Reg),
      exec (x p off true rt rs) s = .refused .storeWithMBit) ∧
    (∀ (ty : FlushType) (rs : Reg), exec (.flush p true ty rs) s = .refused .flushWithCBit)

/-- A word stored to RAM is what the next load of that address reads (R66), here with PG = 0. -/
def Obligations.StoreThenLoad : Prop :=
  ∀ (p q : Pred) (off : BitVec 11) (off' : BitVec 12) (rt rs rd : Reg) (s : State),
    s.pg = false → s.holds p = true → s.holds q = true →
    loadAddr (s.readReg rs) off' = storeAddr (s.readReg rs) off →
    (storeAddr (s.readReg rs) off).toNat < 0x20000000 →
    ∃ t u, exec (.sw p off false rt rs) s = .next t ∧ exec (.lw q off' rd rs) t = .next u ∧
      u.readReg rd = s.readReg rt

/-! Translation (20_memory.md sections 5 and 6). -/

/-- With PG = 0 a data access or a fetch goes to its own aligned address, no table is read and no entry is left, and it
fails exactly where the address is neither RAM nor a peripheral address that answers (R45, R50, R62, R64). -/
def Obligations.TranslationOff : Prop :=
  ∀ (s : State), s.pg = false →
    (∀ (k : Fin 4) (sz : Size) (ea : Word) (st : Bool) (pa : Word), pa.toNat = ea.toNat - ea.toNat % sz.bytes →
      dataTranslation s k sz ea st =
        if pa.toNat < 0x20000000 ∨ (0x80000000 ≤ pa.toNat ∧ Config.periphValid pa = true) then
          { fill := none, result := .ok pa }
        else { fill := none, result := .error .invalidPhysical }) ∧
    (fetchTranslation s =
      if s.pc.toNat < 0x20000000 ∨ (0x80000000 ≤ s.pc.toNat ∧ Config.periphValid s.pc = true) then
        { fill := none, result := .ok s.pc }
      else { fill := none, result := .error .invalidPhysical })

/-- With PG = 1 a translation uses an entry of its TLB for the page or a table walk, and checks U in user mode and W for
a store whatever the mode; a walk that fails leaves no entry (R54, R56, R58). A data access uses the data TLB and its
address aligned to its size, a fetch the instruction TLB and pc, and both check the physical address (R45, R57, R64);
a FLUSH does not check it (the first clause; log 34). -/
def Obligations.TranslationOn : Prop :=
  ∀ (s : State), s.pg = true →
    (∀ (tlb : List TlbEntry) (port : Port) (va : Word) (st : Bool),
      s.TranslatesPaged tlb port va st .ok (translate s tlb port va st)) ∧
    (∀ (k : Fin 4) (sz : Size) (ea : Word) (st : Bool) (va : Word), va.toNat = ea.toNat - ea.toNat % sz.bytes →
      s.TranslatesPaged s.dtlb (.lane k) va st specValid (dataTranslation s k sz ea st)) ∧
    s.TranslatesPaged s.itlb .fetch s.pc false specValid (fetchTranslation s)

/-- The table walk: each entry read is, in RAM, the stored word or an older one that L2 may still hold (the stored one
where none is kept), in the peripheral region a draw; a table address that is no valid physical address gives
InvalidPhysicalAddress; and the entries give the page fault or the translation of R53 (R49, R53, R64; log 8, log 11). -/
def Obligations.TableWalk : Prop :=
  ∀ (s : State) (port : Port) (va pdeAddr : Word),
    pdeAddr = s.ptb.extractLsb' 12 20 ++ va.extractLsb' 22 10 ++ 0#2 →
    (¬SpecAnswers pdeAddr → walk s port va = .error .invalidPhysical) ∧
    (SpecAnswers pdeAddr →
      ∃ pde, s.EntryAt port 0 pdeAddr pde ∧
        (pde.getLsbD 0 = false → walk s port va = .error .pageFault) ∧
        (∀ pteAddr : Word, pde.getLsbD 0 = true → pteAddr = pde.extractLsb' 12 20 ++ va.extractLsb' 12 10 ++ 0#2 →
          (¬SpecAnswers pteAddr → walk s port va = .error .invalidPhysical) ∧
          (SpecAnswers pteAddr →
            ∃ pte, s.EntryAt port 1 pteAddr pte ∧
              (pte.getLsbD 0 = false → walk s port va = .error .pageFault) ∧
              (pte.getLsbD 0 = true → walk s port va = .ok
                { vpage := va.extractLsb' 12 20
                  base := pte.extractLsb' 12 20
                  w := pde.getLsbD 1 && pte.getLsbD 1
                  u := pde.getLsbD 2 && pte.getLsbD 2
                  g := pde.getLsbD 3 || pte.getLsbD 3 }))))

/-- A fetch of a word of RAM sees its value or an older one, and after FLUSH.DATA and then FLUSH.INST of its line, with
PG = 0, only its value (R68, R204). -/
def Obligations.FetchAfterFlush : Prop :=
  (∀ (s : State) (slot : Nat) (pa : Word), isRam pa = true →
    fetchWord s slot pa = s.mem.readWord pa.toNat ∨ (pa.toNat, fetchWord s slot pa) ∈ s.l1iOld) ∧
  (∀ (s : State) (p : Pred) (r : Reg), s.pg = false → s.holds p = true →
    ∃ t u, exec (.flush p false .data r) s = .next t ∧ exec (.flush p false .inst r) t = .next u ∧
      ∀ (slot : Nat) (pa : Word), isRam pa = true → lineOf pa.toNat = lineOf (s.readReg r).toNat →
        fetchWord u slot pa = s.mem.readWord pa.toNat)

/-! Branches (43_branch.md). -/

/-- B and BL in their four forms: pc plus the offset, or base plus the offset rounded down to 16 bytes; BL puts its own
packet's address into R31, B writes no register (R160, R161). -/
def Obligations.BranchesJump : Prop :=
  ∀ (p : Pred) (s : State), s.holds p = true →
    (∀ off : BitVec 25, ∃ t, exec (.bImm p off) s = .next t ∧
      s.Jumped t (s.pc + BitVec.ofInt 32 (16 * off.toInt)) ∧ s.keepsRegs t) ∧
    (∀ off : BitVec 25, ∃ t, exec (.blImm p off) s = .next t ∧
      s.Jumped t (s.pc + BitVec.ofInt 32 (16 * off.toInt)) ∧ t.readReg 31 = s.pc ∧ s.keepsRegsBut t 31) ∧
    (∀ (off : BitVec 20) (rs : Reg) (sum : Word), sum = s.readReg rs + BitVec.ofInt 32 (16 * off.toInt) →
      (∃ t, exec (.bReg p off rs) s = .next t ∧
        s.Jumped t (BitVec.ofNat 32 (sum.toNat - sum.toNat % 16)) ∧ s.keepsRegs t) ∧
      (∃ t, exec (.blReg p off rs) s = .next t ∧
        s.Jumped t (BitVec.ofNat 32 (sum.toNat - sum.toNat % 16)) ∧ t.readReg 31 = s.pc ∧ s.keepsRegsBut t 31))

/-! Multiply and divide (45_muldiv.md). -/

/-- MULT: the exact 64-bit product, its low word in Rd and its high word in `ovf`, and nothing else (R190). -/
def Obligations.MultWritesProduct : Prop :=
  ∀ (p : Pred) (rt rd rs : Reg) (s : State), s.holds p = true →
    (∃ t, exec (.mult p false rt rd rs) s = .next t ∧ s.OnlyRegOvf t rd ∧
      (t.ovf ++ t.readReg rd : BitVec 64).toNat = (s.readReg rs).toNat * (s.readReg rt).toNat) ∧
    (∃ t, exec (.mult p true rt rd rs) s = .next t ∧ s.OnlyRegOvf t rd ∧
      (t.ovf ++ t.readReg rd : BitVec 64).toInt = (s.readReg rs).toInt * (s.readReg rt).toInt)

/-- Unsigned DIV, narrow and wide, where the quotient fits: dividend = quotient * divisor + remainder with the remainder
below the divisor (R191). -/
def Obligations.DivUnsigned : Prop :=
  ∀ (p : Pred) (rt rd rs : Reg) (s : State), s.holds p = true → s.readReg rt ≠ 0#32 →
    (∃ t, exec (.div p false rt false rd rs) s = .next t ∧ s.OnlyRegOvf t rd ∧
      (s.readReg rs).toNat = (t.readReg rd).toNat * (s.readReg rt).toNat + t.ovf.toNat ∧
      t.ovf.toNat < (s.readReg rt).toNat) ∧
    (s.ovf.toNat < (s.readReg rt).toNat →
      ∃ t, exec (.div p false rt true rd rs) s = .next t ∧ s.OnlyRegOvf t rd ∧
        s.ovf.toNat * 2 ^ 32 + (s.readReg rs).toNat = (t.readReg rd).toNat * (s.readReg rt).toNat + t.ovf.toNat ∧
        t.ovf.toNat < (s.readReg rt).toNat)

/-- Signed DIV, narrow and wide, where the quotient fits (R191): quotient and remainder are those of the parameters SDIV
and SREM; and where these have their defaults (R5, log 14), dividend = quotient * divisor + remainder, the remainder
smaller than the divisor and with the dividend's sign. -/
def Obligations.DivSigned : Prop :=
  ∀ (p : Pred) (rt rd rs : Reg) (s : State), s.holds p = true → s.readReg rt ≠ 0#32 →
    (∀ (wide : Bool) (n : Int),
      n = (if wide = true then (s.ovf ++ s.readReg rs : BitVec 64).toInt else (s.readReg rs).toInt) →
      -0x80000000 ≤ sdiv s.params.signedDivision n (s.readReg rt).toInt →
      sdiv s.params.signedDivision n (s.readReg rt).toInt < 0x80000000 →
      ∃ t, exec (.div p true rt wide rd rs) s = .next t ∧ s.OnlyRegOvf t rd ∧
        (t.readReg rd).toInt = sdiv s.params.signedDivision n (s.readReg rt).toInt ∧
        t.ovf = BitVec.ofInt 32 (srem s.params.signedDivision n (s.readReg rt).toInt)) ∧
    (s.params.signedDivision = .truncating →
      (¬((s.readReg rs).toInt = -0x80000000 ∧ (s.readReg rt).toInt = -1) →
        ∃ t, exec (.div p true rt false rd rs) s = .next t ∧ s.OnlyRegOvf t rd ∧
          (s.readReg rs).toInt = (t.readReg rd).toInt * (s.readReg rt).toInt + t.ovf.toInt ∧
          t.ovf.toInt.natAbs < (s.readReg rt).toInt.natAbs ∧
          (t.ovf.toInt = 0 ∨ (0 < t.ovf.toInt ↔ 0 < (s.readReg rs).toInt))) ∧
      (∀ q r : Int, -0x80000000 ≤ q → q < 0x80000000 →
        (s.ovf ++ s.readReg rs : BitVec 64).toInt = q * (s.readReg rt).toInt + r →
        r.natAbs < (s.readReg rt).toInt.natAbs →
        (r = 0 ∨ (0 < r ↔ 0 < (s.ovf ++ s.readReg rs : BitVec 64).toInt)) →
        ∃ t, exec (.div p true rt true rd rs) s = .next t ∧ s.OnlyRegOvf t rd ∧
          (t.readReg rd).toInt = q ∧ t.ovf.toInt = r))

/-- DIV by a register that is not 0 completes for every S, W and dividend, also where the quotient does not fit and both
results are draws: only Rd and `ovf` change (R191, log 13). -/
def Obligations.DivAlwaysCompletes : Prop :=
  ∀ (p : Pred) (sg wide : Bool) (rt rd rs : Reg) (s : State), s.holds p = true → s.readReg rt ≠ 0#32 →
    ∃ t, exec (.div p sg rt wide rd rs) s = .next t ∧ s.OnlyRegOvf t rd

/-- DIV by 0 takes DivideByZero on lane 0 for every S and W: Rd, `ovf` and all else keep their values (R227). -/
def Obligations.DivideByZeroTraps : Prop :=
  ∀ (p : Pred) (sg wide : Bool) (rt rd rs : Reg) (s : State), s.holds p = true → s.readReg rt = 0#32 →
    ∃ t, exec (.div p sg rt wide rd rs) s = .next t ∧
      s.Trapped t 7#32 0#32 0#32 0#32 s.ea0 s.ea1 ∧ s.keepsTlbs t

/-- MFHI copies `ovf` to Rd, MTHI copies Rs to `ovf`, and nothing else changes (R192, R193). -/
def Obligations.MfhiMthi : Prop :=
  ∀ (p : Pred) (s : State), s.holds p = true →
    (∀ rd : Reg, ∃ t, exec (.mfhi p rd) s = .next t ∧ s.WroteReg t rd s.ovf) ∧
    (∀ rs : Reg, ∃ t, exec (.mthi p rs) s = .next t ∧ t.ovf = s.readReg rs ∧ s.keepsRegs t ∧ s.keepsPreds t ∧
      t.link = s.link ∧ s.keepsMemory t ∧ s.keepsTlbs t ∧ s.Advanced t)

/-! System instructions (46_system.md). -/

/-- SYSCALL and BREAK, in either mode, take trap entry with code 9 or 10 on lane 0 (R200, R201, R229, R230). -/
def Obligations.SyscallAndBreakTrap : Prop :=
  ∀ (p : Pred) (s : State), s.holds p = true →
    (∃ t, exec (.syscall p) s = .next t ∧ s.Trapped t 9#32 0#32 0#32 0#32 s.ea0 s.ea1 ∧ s.keepsTlbs t) ∧
    (∃ t, exec (.brk p) s = .next t ∧ s.Trapped t 10#32 0#32 0#32 0#32 s.ea0 s.ea1 ∧ s.keepsTlbs t)

/-- FENCE does nothing: the next packet follows and every other field of the state is as it was (R202). -/
def Obligations.FenceDoesNothing : Prop :=
  ∀ (p : Pred) (s : State), s.holds p = true → exec (.fence p) s = .next { s with pc := s.pc + 16#32 }

/-- ERET in kernel mode: pc, mode and IE from EPC, the link bit cleared, and nothing else changed (R203, R240). -/
def Obligations.EretReturns : Prop :=
  ∀ (p : Pred) (s : State), s.holds p = true → s.mode = .kernel →
    ∃ t, exec (.eret p) s = .next t ∧
      t.pc.extractLsb' 4 28 = s.epc.extractLsb' 4 28 ∧ t.pc.extractLsb' 0 4 = 0#4 ∧
      t.mode = (if s.epc.getLsbD s.params.epcMBit.val = true then .kernel else .user) ∧
      t.pflags.getLsbD 0 = s.epc.getLsbD s.params.epcIfBit.val ∧ t.pflags.extractLsb' 1 31 = s.pflags.extractLsb' 1 31 ∧
      t.link = false ∧
      (∀ c : Cpr, c ≠ .pflags → t.readCpr c = s.readCpr c) ∧
      s.keepsRegs t ∧ s.keepsPreds t ∧ t.ovf = s.ovf ∧ s.keepsMemory t ∧ s.keepsTlbs t ∧ s.keepsEnvironment t

/-- FLUSH.DTLB and FLUSH.ITLB remove every entry of the one TLB for the page of Rs, whatever its G flag, and do nothing
else (R204). -/
def Obligations.FlushTlbRemovesPage : Prop :=
  ∀ (p : Pred) (rs : Reg) (s : State), s.holds p = true →
    (∃ t, exec (.flush p false .dtlb rs) s = .next t ∧
      (∀ e, e ∈ t.dtlb ↔ e ∈ s.dtlb ∧ e.vpage ≠ (s.readReg rs).extractLsb' 12 20) ∧ t.itlb = s.itlb ∧
      s.keepsRegs t ∧ s.keepsPreds t ∧ t.ovf = s.ovf ∧ t.link = s.link ∧ s.keepsMemory t ∧ s.Advanced t) ∧
    (∃ t, exec (.flush p false .itlb rs) s = .next t ∧
      (∀ e, e ∈ t.itlb ↔ e ∈ s.itlb ∧ e.vpage ≠ (s.readReg rs).extractLsb' 12 20) ∧ t.dtlb = s.dtlb ∧
      s.keepsRegs t ∧ s.keepsPreds t ∧ t.ovf = s.ovf ∧ t.link = s.link ∧ s.keepsMemory t ∧ s.Advanced t)

/-- FLUSH.DATA and FLUSH.INST of the line of the translated address: no byte changes for the core's own loads; after
FLUSH.DATA L2 holds no older value of the line, and after FLUSH.INST a fetch of the line sees only what L2 may hold
(R204, R53, R68). -/
def Obligations.FlushLine : Prop :=
  ∀ (p : Pred) (rs : Reg) (s : State) (pa : Word), s.holds p = true →
    ((translate s s.dtlb (.lane 0) (s.readReg rs) false).result = .ok pa →
      ∃ t, exec (.flush p false .data rs) s = .next t ∧
        (∀ v, v ∈ t.l2Old ↔ v ∈ s.l2Old ∧ lineOf v.1 ≠ lineOf pa.toNat) ∧ t.l1iOld = s.l1iOld ∧
        (∀ a, t.mem.read a = s.mem.read a) ∧ t.periphLog = s.periphLog ∧ s.keepsPreds t ∧
        s.StoreFrame t s.link (translate s s.dtlb (.lane 0) (s.readReg rs) false).fill) ∧
    ((translate s s.itlb (.lane 0) (s.readReg rs) false).result = .ok pa →
      ∃ t, exec (.flush p false .inst rs) s = .next t ∧
        (∀ v, v ∈ t.l1iOld ↔ (v ∈ s.l1iOld ∧ lineOf v.1 ≠ lineOf pa.toNat) ∨
          (v ∈ s.l2Old ∧ lineOf v.1 = lineOf pa.toNat)) ∧ t.l2Old = s.l2Old ∧
        (∀ a, t.mem.read a = s.mem.read a) ∧ t.periphLog = s.periphLog ∧ s.keepsPreds t ∧
        s.keepsRegs t ∧ t.ovf = s.ovf ∧ t.link = s.link ∧ t.dtlb = s.dtlb ∧
        t.itlb = (s.fillOption .inst (translate s s.itlb (.lane 0) (s.readReg rs) false).fill).itlb ∧
        s.Advanced t)

/-- FLUSH.DATA and FLUSH.INST of an address whose translation fails take the trap: code 5 for a page fault, 6 for an
invalid table address, with Rs in EA0 (R55, R204, R225, R226). -/
def Obligations.FlushFaultsTrap : Prop :=
  ∀ (p : Pred) (rs : Reg) (s : State) (f : MemFault), s.holds p = true →
    ((translate s s.dtlb (.lane 0) (s.readReg rs) false).result = .error f →
      ∃ t, exec (.flush p false .data rs) s = .next t ∧
        s.Trapped t (if f = .pageFault then 5#32 else 6#32) 0#32 0#32 0#32 (s.readReg rs) s.ea1) ∧
    ((translate s s.itlb (.lane 0) (s.readReg rs) false).result = .error f →
      ∃ t, exec (.flush p false .inst rs) s = .next t ∧
        s.Trapped t (if f = .pageFault then 5#32 else 6#32) 0#32 0#32 0#32 (s.readReg rs) s.ea1)

/-- The fourteen coprocessor register numbers, the field of the state that each register is, and MFC of each in kernel
mode: Rd gets the register (PFLAGS with bits 31:2 0) and nothing else changes (R19, R20, R27, R205). -/
def Obligations.MfcReads : Prop :=
  (∀ (n : CprNum) (c : Cpr), cprOf n = some c ↔
    (n.val, c) ∈ [(0, Cpr.pflags), (1, .ptb), (2, .eha), (3, .epc), (4, .ec0), (5, .ec1), (6, .ec2), (7, .ec3),
      (8, .ea0), (9, .ea1), (16, .sp0), (17, .sp1), (18, .sp2), (19, .sp3)]) ∧
  (∀ s : State, s.readCpr .ptb = s.ptb ∧ s.readCpr .eha = s.eha ∧ s.readCpr .epc = s.epc ∧ s.readCpr .ec0 = s.ec0 ∧
    s.readCpr .ec1 = s.ec1 ∧ s.readCpr .ec2 = s.ec2 ∧ s.readCpr .ec3 = s.ec3 ∧ s.readCpr .ea0 = s.ea0 ∧
    s.readCpr .ea1 = s.ea1 ∧ s.readCpr .sp0 = s.sp0 ∧ s.readCpr .sp1 = s.sp1 ∧ s.readCpr .sp2 = s.sp2 ∧
    s.readCpr .sp3 = s.sp3) ∧
  (∀ (p : Pred) (rd : Reg) (n : CprNum) (c : Cpr) (s : State), s.holds p = true → s.mode = .kernel →
    cprOf n = some c →
    ∃ t, exec (.mfc p rd n) s = .next t ∧ s.WroteReg t rd (s.readCpr c) ∧
      (c = .pflags → (s.readCpr c).extractLsb' 0 2 = s.pflags.extractLsb' 0 2 ∧
        (s.readCpr c).extractLsb' 2 30 = 0#30))

/-- MTC in kernel mode: the one register gets Rs (PFLAGS keeps bits 1:0 only), every other register keeps its value, and
only a write to PTB touches the TLBs: it removes every entry with G = 0 (R20, R27, R60, R206). -/
def Obligations.MtcWrites : Prop :=
  ∀ (p : Pred) (n : CprNum) (rs : Reg) (c : Cpr) (s : State), s.holds p = true → s.mode = .kernel →
    cprOf n = some c →
    ∃ t, exec (.mtc p n rs) s = .next t ∧
      t.readCpr c = (if c = .pflags then s.readReg rs &&& 3#32 else s.readReg rs) ∧
      (∀ d : Cpr, d ≠ c → t.readCpr d = s.readCpr d) ∧
      (c = .ptb → (∀ e, e ∈ t.dtlb ↔ e ∈ s.dtlb ∧ e.g = true) ∧ (∀ e, e ∈ t.itlb ↔ e ∈ s.itlb ∧ e.g = true)) ∧
      (c ≠ .ptb → s.keepsTlbs t) ∧
      t.pc = s.pc + 16#32 ∧ t.mode = s.mode ∧ t.link = s.link ∧ s.keepsRegs t ∧ s.keepsPreds t ∧ t.ovf = s.ovf ∧
      s.keepsMemory t ∧ s.keepsEnvironment t

/-- ERET, MFC and MTC in user mode take InsufficientPermissions, code 3, and do nothing else (R223, R243). -/
def Obligations.PrivilegedInUserModeTraps : Prop :=
  ∀ (p : Pred) (s : State), s.holds p = true → s.mode = .user →
    (∃ t, exec (.eret p) s = .next t ∧ s.Trapped t 3#32 0#32 0#32 0#32 s.ea0 s.ea1 ∧ s.keepsTlbs t) ∧
    (∀ (n : CprNum) (r : Reg), (n.val ≤ 9 ∨ (16 ≤ n.val ∧ n.val ≤ 19)) →
      (∃ t, exec (.mfc p r n) s = .next t ∧ s.Trapped t 3#32 0#32 0#32 0#32 s.ea0 s.ea1 ∧ s.keepsTlbs t) ∧
      (∃ t, exec (.mtc p n r) s = .next t ∧ s.Trapped t 3#32 0#32 0#32 0#32 s.ea0 s.ea1 ∧ s.keepsTlbs t))

/-- MFC and MTC naming numbers 10 to 15 or 20 to 31 take IllegalInstruction, code 2, in either mode (R28, R233). -/
def Obligations.UndefinedCprTraps : Prop :=
  ∀ (p : Pred) (n : CprNum) (r : Reg) (s : State), s.holds p = true →
    ((10 ≤ n.val ∧ n.val ≤ 15) ∨ 20 ≤ n.val) →
    (∃ t, exec (.mfc p r n) s = .next t ∧ s.Trapped t 2#32 0#32 0#32 0#32 s.ea0 s.ea1 ∧ s.keepsTlbs t) ∧
    (∃ t, exec (.mtc p n r) s = .next t ∧ s.Trapped t 2#32 0#32 0#32 0#32 s.ea0 s.ea1 ∧ s.keepsTlbs t)

/-! Packets (40_packet_execution.md section 1). -/

/-- An instruction whose predicate is false has no effect whatever: the next packet follows and every other field of the
state is as it was; and P3 reads 1 in every state (R15, R81, R113). -/
def Obligations.FalsePredicateSkips : Prop :=
  (∀ s : State, s.readPred 3 = true) ∧
  (∀ (i : Instr) (s : State), s.readPred i.pred.reg = i.pred.inv →
    exec i s = .next { s with pc := s.pc + 16#32 })

/-- exec is the execution of any packet that holds the instruction in slot 0 and whose other slots contribute nothing;
and an ALU instruction, a compare among them, does the same in any slot it may occupy, a long-immediate form in slots 0
to 2 (R112, R114, R118). -/
def Obligations.ExecIsLonePacket : Prop :=
  ∀ (i : Instr) (s : State),
    exec i s = runPacket (alonePacket i) s ∧
    (∀ pk, Only pk 0 i s → runPacket pk s = exec i s) ∧
    (∀ (k : Fin 4) (pk : Packet), i.format.type = .alu → (i.format = .aluLong → k ≠ 3) → Only pk k i s →
      runPacket pk s = exec i s)

/-- An undefined encoding, and an instruction in a slot that its type may not occupy, contribute IllegalInstruction and
no write when their predicate is true; an operand slot, and a slot whose predicate is false, contribute nothing, but for
their destinations where DUPDEST_DYNAMIC is false (R103, R111, R112, R113, R222; log 17). -/
def Obligations.IllegalSlots : Prop :=
  ∀ (k : Fin 4) (s : State),
    (∀ (q : Pred) (e : DecodeError), s.holds q = true →
      (slotLane k (.undefined q e) s).exn = some .illegalInstruction ∧ (slotLane k (.undefined q e) s).writes = []) ∧
    (∀ i : Instr, s.holds i.pred = true →
      ((i.format.type = .control ∧ k ≠ 0) ∨ (i.format.type = .memory ∧ 2 ≤ k.val) ∨ (i.format = .aluLong ∧ k = 3)) →
      (slotLane k (.instr i) s).exn = some .illegalInstruction ∧ (slotLane k (.instr i) s).writes = []) ∧
    slotLane k .operand s = Lane.idle ∧
    (∀ x : Slot, (∀ i, x = .instr i → s.holds i.pred = false) → (∀ q e, x = .undefined q e → s.holds q = false) →
      slotLane k x s = { Lane.idle with dests := (slotLane k x s).dests } ∧
      (s.params.dupDestDynamic = true → slotLane k x s = Lane.idle))

/-- Any exception or duplicate destination in a packet takes one trap with every lane's code: each lane reports the first
that applies in the order of R233, No Error if none does, and EA0 and EA1 are written exactly where the reported code is
5 or 6; no write of any slot is committed (R115, R117, R233 to R237). Three points are the model's reading: the trap is
taken also where the memory slots conflict under R71 (log 19); a lane that raises an exception of its own still shares
its destination, so that the other lane reports DuplicateDestination (log 25); and with DUPDEST_DYNAMIC false a slot
with a false predicate shares its destination too, and reports (log 17). -/
def Obligations.PacketTraps : Prop :=
  ∀ (pk : Packet) (s : State), (∀ k, (laneAt pk s k).refusal = none) →
    ((∃ k, (laneAt pk s k).exn ≠ none) ∨ ∃ k, duplicated pk s k) →
    ∃ t, runPacket pk s = .next t ∧ s.Trapped t t.ec0 t.ec1 t.ec2 t.ec3 t.ea0 t.ea1 ∧
      (∀ k,
        ((laneAt pk s k).exn = some .illegalInstruction → t.errorCode k = 2#32) ∧
        ((laneAt pk s k).exn = some .insufficientPermissions → t.errorCode k = 3#32) ∧
        ((laneAt pk s k).exn = some .syscall → t.errorCode k = 9#32) ∧
        ((laneAt pk s k).exn = some .brk → t.errorCode k = 10#32) ∧
        (duplicated pk s k → ((laneAt pk s k).exn = none ∨ (laneAt pk s k).exn = some .divideByZero ∨
          ∃ a, (laneAt pk s k).exn = some (.dataPageFault a) ∨ (laneAt pk s k).exn = some (.invalidPhysicalAddress a)) →
          t.errorCode k = 4#32) ∧
        (¬duplicated pk s k →
          ((laneAt pk s k).exn = none → t.errorCode k = 0#32) ∧
          ((laneAt pk s k).exn = some .divideByZero → t.errorCode k = 7#32) ∧
          (∀ a, (laneAt pk s k).exn = some (.dataPageFault a) → t.errorCode k = 5#32) ∧
          (∀ a, (laneAt pk s k).exn = some (.invalidPhysicalAddress a) → t.errorCode k = 6#32))) ∧
      ((t.ec0 ≠ 5#32 ∧ t.ec0 ≠ 6#32) → t.ea0 = s.ea0) ∧
      ((t.ec1 ≠ 5#32 ∧ t.ec1 ≠ 6#32) → t.ea1 = s.ea1) ∧
      (∀ a, ¬duplicated pk s 0 → ((laneAt pk s 0).exn = some (.dataPageFault a) ∨
        (laneAt pk s 0).exn = some (.invalidPhysicalAddress a)) → t.ea0 = a) ∧
      (∀ a, ¬duplicated pk s 1 → ((laneAt pk s 1).exn = some (.dataPageFault a) ∨
        (laneAt pk s 1).exn = some (.invalidPhysicalAddress a)) → t.ea1 = a)

/-- A packet whose slots raise nothing, refuse nothing, share no destination and do not conflict in memory commits every
write of every slot, each computed from the state before the packet (`laneAt pk s`): registers, predicates, `ovf`, the
link bit, coprocessor registers and bytes of RAM; what no slot writes of these is as before (of the link bit and the
coprocessor registers, where slot 0 is no ERET); and pc is the branch target or EPC's address where slot 0 writes it,
else the next packet's (R114, R116, R118 step 8). With four ADDs in its slots, every result is computed from the
registers before the packet, whichever of them another slot writes, and nothing else changes but pc. -/
def Obligations.PacketCommits : Prop :=
  (∀ (pk : Packet) (s : State),
    (∀ k, (laneAt pk s k).exn = none ∧ (laneAt pk s k).refusal = none) → (∀ k, ¬duplicated pk s k) →
    (∀ a b, (laneAt pk s 0).access = some a → (laneAt pk s 1).access = some b → ¬SpecConflict a b) →
    ∃ t, runPacket pk s = .next t ∧
      (∀ k r v, .reg r v ∈ (laneAt pk s k).writes → t.readReg r = v) ∧
      (∀ r, (∀ k v, .reg r v ∉ (laneAt pk s k).writes) → t.readReg r = s.readReg r) ∧
      (∀ k n b, n ≠ 3 → .pred n b ∈ (laneAt pk s k).writes → t.readPred n = b) ∧
      (∀ n, (∀ k b, .pred n b ∉ (laneAt pk s k).writes) → t.readPred n = s.readPred n) ∧
      (∀ k v, .ovf v ∈ (laneAt pk s k).writes → t.ovf = v) ∧
      ((∀ k v, .ovf v ∉ (laneAt pk s k).writes) → t.ovf = s.ovf) ∧
      (∀ k b, .trapReturn ∉ (laneAt pk s 0).writes → .link b ∈ (laneAt pk s k).writes → t.link = b) ∧
      (.trapReturn ∉ (laneAt pk s 0).writes → (∀ k b, .link b ∉ (laneAt pk s k).writes) → t.link = s.link) ∧
      (∀ c v, .cpr c v ∈ (laneAt pk s 0).writes → t.readCpr c = if c = .pflags then v &&& 3#32 else v) ∧
      (.trapReturn ∉ (laneAt pk s 0).writes →
        t.mode = s.mode ∧ ∀ c, (∀ v, .cpr c v ∉ (laneAt pk s 0).writes) → t.readCpr c = s.readCpr c) ∧
      (∀ k pa sz v j, .store pa sz v ∈ (laneAt pk s k).writes → isRam pa = true → j < sz.bytes →
        t.mem.read (pa.toNat + j) = v.extractLsb' (8 * j) 8) ∧
      (∀ a, (∀ k pa sz v, .store pa sz v ∈ (laneAt pk s k).writes → isRam pa = true →
          a < pa.toNat ∨ pa.toNat + sz.bytes ≤ a) → t.mem.read a = s.mem.read a) ∧
      (∀ target, .pc target ∈ (laneAt pk s 0).writes → t.pc = target) ∧
      (.trapReturn ∈ (laneAt pk s 0).writes →
        t.pc.extractLsb' 4 28 = s.epc.extractLsb' 4 28 ∧ t.pc.extractLsb' 0 4 = 0#4) ∧
      (.trapReturn ∉ (laneAt pk s 0).writes → (∀ target, .pc target ∉ (laneAt pk s 0).writes) →
        t.pc = s.pc + 16#32) ∧
      s.keepsEnvironment t) ∧
  (∀ (p : Fin 4 → Pred) (c : Fin 4 → BitVec 10) (rot : Fin 4 → BitVec 4) (rd rs : Fin 4 → Reg) (s : State),
      (∀ k, s.holds (p k) = true) → (∀ j k, rd j = rd k → j = k) →
      ∃ t, runPacket
          { slot0 := .instr (.addShort (p 0) (c 0) (rot 0) (rd 0) (rs 0))
            slot1 := .instr (.addShort (p 1) (c 1) (rot 1) (rd 1) (rs 1))
            slot2 := .instr (.addShort (p 2) (c 2) (rot 2) (rd 2) (rs 2))
            slot3 := .instr (.addShort (p 3) (c 3) (rot 3) (rd 3) (rs 3)) } s = .next t ∧
        (∀ k, t.readReg (rd k) = s.readReg (rs k) + shortImm10 (c k) (rot k)) ∧
        (∀ r, (∀ k, r ≠ rd k) → t.readReg r = s.readReg r) ∧
        s.keepsPreds t ∧ t.ovf = s.ovf ∧ t.link = s.link ∧ s.keepsMemory t ∧ s.keepsTlbs t ∧ s.Advanced t)

/-- Two ADDs in any two slots of a packet, beside slots that issue nothing. Both executing: with the same destination both
raise DuplicateDestination, with different destinations both write. One predicate false: with DUPDEST_DYNAMIC true, the
default, the other ADD completes; with DUPDEST_DYNAMIC false, both raise where the destinations are the same (R115, R224,
D9; log 17). -/
def Obligations.DuplicateDestinationTraps : Prop :=
  ∀ (p q : Pred) (c d : BitVec 10) (rot rot' : BitVec 4) (rd rd' rs rs' : Reg) (s : State) (j k : Fin 4) (pk : Packet),
    j ≠ k → slotAt pk j = .instr (.addShort p c rot rd rs) → slotAt pk k = .instr (.addShort q d rot' rd' rs') →
    (∀ i, i ≠ j → i ≠ k → slotAt pk i = .operand) → s.holds p = true →
    (rd = rd' → (s.holds q = true ∨ s.params.dupDestDynamic = false) →
      ∃ t, runPacket pk s = .next t ∧ t.errorCode j = 4#32 ∧ t.errorCode k = 4#32 ∧
        (∀ i, i ≠ j → i ≠ k → t.errorCode i = 0#32) ∧
        s.Trapped t t.ec0 t.ec1 t.ec2 t.ec3 s.ea0 s.ea1 ∧ s.keepsTlbs t) ∧
    (rd ≠ rd' → s.holds q = true →
      ∃ t, runPacket pk s = .next t ∧ t.readReg rd = s.readReg rs + shortImm10 c rot ∧
        t.readReg rd' = s.readReg rs' + shortImm10 d rot' ∧
        (∀ r, r ≠ rd → r ≠ rd' → t.readReg r = s.readReg r) ∧
        s.keepsPreds t ∧ t.ovf = s.ovf ∧ t.link = s.link ∧ s.keepsMemory t ∧ s.keepsTlbs t ∧ s.Advanced t) ∧
    (s.holds q = false → (s.params.dupDestDynamic = true ∨ rd ≠ rd') →
      ∃ t, runPacket pk s = .next t ∧ s.WroteReg t rd (s.readReg rs + shortImm10 c rot))

/-- Two memory instructions in slots 0 and 1. Each executing one whose address translates has the access that R71 compares:
its kind, physical address and size. Where the two accesses conflict in the words of R71, no lane raises and
MEM_LANE_ORDER has no value, the default, the packet is refused (log 18). A load of a word in slot 0 beside a store of a
word in slot 1, where the packet is not refused: both complete, and the load sees memory as it was before the packet
(R114), or, where MEM_LANE_ORDER puts slot 1 first, as the store leaves it (log 36). -/
def Obligations.TwoMemorySlots : Prop :=
  (∀ (pk : Packet) (p : Pred) (s : State) (k : Fin 4) (pa : Word), k.val ≤ 1 → s.holds p = true →
    (∀ y ∈ [(Instr.lb, Size.byte, AccessKind.load), (Instr.lh, Size.half, AccessKind.load),
            (Instr.lw, Size.word, AccessKind.load), (Instr.ll, Size.word, AccessKind.ll)],
      ∀ (off : BitVec 12) (rd rs : Reg), slotAt pk k = .instr (y.1 p off rd rs) →
        (dataTranslation s k y.2.1 (loadAddr (s.readReg rs) off) false).result = .ok pa →
        HasAccess pk s k { kind := y.2.2 rd, pa := pa, size := y.2.1 }) ∧
    (∀ y ∈ [(Instr.sb, Size.byte, AccessKind.store), (Instr.sh, Size.half, AccessKind.store),
            (Instr.sw, Size.word, AccessKind.store), (Instr.sc, Size.word, AccessKind.sc)],
      ∀ (off : BitVec 11) (rt rs : Reg), slotAt pk k = .instr (y.1 p off false rt rs) →
        (dataTranslation s k y.2.1 (storeAddr (s.readReg rs) off) true).result = .ok pa →
        HasAccess pk s k { kind := y.2.2, pa := pa, size := y.2.1 })) ∧
  (∀ (pk : Packet) (s : State) (a b : Access), HasAccess pk s 0 a → HasAccess pk s 1 b → SpecConflict a b →
    (∀ k, (laneAt pk s k).exn = none ∧ (laneAt pk s k).refusal = none) → (∀ k, ¬duplicated pk s k) →
    s.params.memLaneOrder = none → runPacket pk s = .refused .memorySlotsConflict) ∧
  (∀ (p q : Pred) (off : BitVec 12) (off' : BitVec 11) (rd rs rt rs' : Reg) (s : State) (pa pb : Word),
    s.holds p = true → s.holds q = true → isRam pa = true → isRam pb = true →
    (dataTranslation s 0 .word (loadAddr (s.readReg rs) off) false).result = .ok pa →
    (dataTranslation s 1 .word (storeAddr (s.readReg rs') off') true).result = .ok pb →
    (s.params.memLaneOrder = none → (pa.toNat < pb.toNat + 4 ∧ pb.toNat < pa.toNat + 4) →
      runPacket { slot0 := .instr (.lw p off rd rs), slot1 := .instr (.sw q off' false rt rs'), slot2 := .operand,
                  slot3 := .operand } s = .refused .memorySlotsConflict) ∧
    ((s.params.memLaneOrder ≠ none ∨ pb.toNat + 4 ≤ pa.toNat ∨ pa.toNat + 4 ≤ pb.toNat) →
      ∃ t, runPacket { slot0 := .instr (.lw p off rd rs), slot1 := .instr (.sw q off' false rt rs'),
                       slot2 := .operand, slot3 := .operand } s = .next t ∧
        t.readReg rd = (if s.params.memLaneOrder = some .slot1First then t.mem.readWord pa.toNat
          else s.mem.readWord pa.toNat) ∧
        s.keepsRegsBut t rd ∧ s.storedBytes t pb.toNat 4 (s.readReg rt) ∧ t.pc = s.pc + 16#32))

/-! The step (40_packet_execution.md R118). -/

/-- A step runs the decoded instruction: where no interrupt is taken, the fetch succeeds, the words at pc decode to an
instruction in slot 0 and the other slots contribute nothing, the step is exec of that instruction, in the state in
which the fetch's own table walk may have left an entry in the instruction TLB (none with PG = 0), followed by what
happens between steps: the count of steps and the interrupt input move on and the TLBs may lose entries. -/
def Obligations.StepRunsDecodedInstruction : Prop :=
  ∀ (s : State) (pa : Word) (i : Instr), (s.ie = false ∨ s.irq = false) →
    (fetchTranslation s).result = .ok pa →
    decode (fetchWord s 0 pa) (fetchWord s 1 (pa + 4#32)) = .ok i →
    (∀ k, k ≠ 0 → laneAt (fetchedPacket s pa) (afterFetch s) k = Lane.idle) →
    (∀ t, exec i (afterFetch s) = .next t → step s = .next t.betweenSteps) ∧
    (∀ r, exec i (afterFetch s) = .refused r → step s = .refused r) ∧
    (s.pg = false → afterFetch s = s) ∧
    (∀ t : State, t.betweenSteps =
      { t with tick := t.betweenSteps.tick, irq := t.betweenSteps.irq, dtlb := t.betweenSteps.dtlb,
               itlb := t.betweenSteps.itlb })

/-- An instruction placed by withFetchWord is what the next step runs (the model's own way to place a program, log 30),
with PG = 0 and pc an aligned address in RAM. -/
def Obligations.PlacedInstructionRuns : Prop :=
  ∀ (s : State) (nbits w : Nat) (i : Instr), s.pg = false → s.pc.extractLsb' 0 4 = 0#4 → s.pc.toNat < 0x20000000 →
    decodeTableWord nbits w = some i →
    step (s.withFetchWord nbits w) = closeStep (exec i (s.withFetchWord nbits w))

/-- With interrupts enabled and requested, the step is trap entry with code 8 and no packet executes (R228, R232,
R235, R236). -/
def Obligations.InterruptTaken : Prop :=
  ∀ s : State, s.pflags.getLsbD 0 = true → s.irq = true →
    ∃ t, step s = .next t ∧ s.Trapped t 8#32 0#32 0#32 0#32 s.ea0 s.ea1

/-- A packet whose fetch fails is not executed: the step is trap entry with EC0 = 1 for a page fault and 6 for an invalid
physical address, and EA0, EA1 unchanged (R221, R226, R235, R236). -/
def Obligations.FetchFaultTaken : Prop :=
  ∀ (s : State) (f : MemFault), (s.ie = false ∨ s.irq = false) → (fetchTranslation s).result = .error f →
    ∃ t, step s = .next t ∧
      s.Trapped t (if f = .pageFault then 1#32 else 6#32) 0#32 0#32 0#32 s.ea0 s.ea1

/-- Every step goes on, but for the three refusals, and these stand only where the spec asks for them, in the packet that
the step has fetched: `storeWithMBit` only where a slot holds an executing SB, SH, SW or SC with M = 1, `flushWithCBit`
only where one holds an executing FLUSH with C = 1 (R104), `memorySlotsConflict` only where MEM_LANE_ORDER has no value
and the accesses of executing memory instructions in slots 0 and 1 conflict (R71). No step faults, and no instruction is
refused as not modelled. -/
def Obligations.StepStopsOnlyByRefusal : Prop :=
  ∀ s : State, (∃ t, step s = .next t) ∨
    ∃ pa r, (fetchTranslation s).result = .ok pa ∧ step s = .refused r ∧
      ((r = .storeWithMBit ∧ ∃ k, HasStoreWithMBit (fetchedPacket s pa) s k) ∨
        (r = .flushWithCBit ∧ ∃ k, HasFlushWithCBit (fetchedPacket s pa) s k) ∨
        (r = .memorySlotsConflict ∧ s.params.memLaneOrder = none ∧
          ∃ a b, HasAccess (fetchedPacket s pa) (afterFetch s) 0 a ∧ HasAccess (fetchedPacket s pa) (afterFetch s) 1 b ∧
            SpecConflict a b))

/-! Whole-machine properties. -/

/-- What reset leaves where the spec states it, for every value of the parameters: kernel mode, PFLAGS 0, link 0, P3 1,
empty TLBs, no dirty line, and pc at the parameter RESET_PC, 16-byte aligned (R32, R260); `State.reset` is that of the
default parameters (that RESET_PC is 0 there is the model's choice, log 2, log 35). -/
def Obligations.ResetValues : Prop :=
  (∀ ps : Params, ps.resetPc.extractLsb' 0 4 = 0#4 ∧ (State.resetWith ps).pc = ps.resetPc ∧
    (State.resetWith ps).params = ps ∧ (State.resetWith ps).mode = .kernel ∧ (State.resetWith ps).pflags = 0#32 ∧
    (State.resetWith ps).link = false ∧ (State.resetWith ps).readPred 3 = true ∧ (State.resetWith ps).dtlb = [] ∧
    (State.resetWith ps).itlb = [] ∧ (State.resetWith ps).l2Old = [] ∧ (State.resetWith ps).l1iOld = []) ∧
  State.reset = State.resetWith Params.default

/-- The invariant holds at reset, whatever the parameters; that memory lists nothing there is the model's choice
(log 3). -/
def Obligations.InvAtReset : Prop := ∀ ps : Params, (State.resetWith ps).Inv

/-- Every step keeps the invariant: pc a packet address, PFLAGS bits 31:2 zero, RAM canonical and inside its range, the
older values those of words of RAM (R13, R20, R46, R62, R68). -/
def Obligations.StepKeepsInv : Prop := ∀ s t : State, s.Inv → step s = .next t → t.Inv

/-- User mode cannot touch the coprocessor registers or leave user mode but by a trap: after a step from user mode,
either it is still user mode and every coprocessor register is as it was, or a trap was entered, with its effects and no
others (R17, R235, R242, R243). -/
def Obligations.UserModeIsolation : Prop :=
  ∀ s t : State, s.mode = .user → step s = .next t →
    (t.mode = .user ∧ t.pflags = s.pflags ∧ ∀ c : Cpr, t.readCpr c = s.readCpr c) ∨
    s.Trapped t t.ec0 t.ec1 t.ec2 t.ec3 t.ea0 t.ea1

/-- PTB, EHA and SP0 to SP3 change only by an executing MTC of kernel mode in slot 0 that names the register
(R21, R22, R26, R235). -/
def Obligations.KernelRegistersChangeOnlyByMtc : Prop :=
  ∀ (s t : State) (c : Cpr), step s = .next t →
    c ∈ [Cpr.ptb, .eha, .sp0, .sp1, .sp2, .sp3] → t.readCpr c ≠ s.readCpr c →
    s.mode = .kernel ∧ ∃ (pa : Word) (p : Pred) (n : CprNum) (rs : Reg),
      (fetchTranslation s).result = .ok pa ∧ (fetchedPacket s pa).slot0 = .instr (.mtc p n rs) ∧
      s.holds p = true ∧ cprOf n = some c ∧ t.readCpr c = s.readReg rs

/-- The link bit becomes 1 only by an executing LL in slot 0 or 1 (R18). -/
def Obligations.LinkSetOnlyByLl : Prop :=
  ∀ s t : State, step s = .next t → s.link = false → t.link = true →
    ∃ (pa : Word) (p : Pred) (off : BitVec 12) (rd rs : Reg),
      (fetchTranslation s).result = .ok pa ∧ s.holds p = true ∧
      ((fetchedPacket s pa).slot0 = .instr (.ll p off rd rs) ∨ (fetchedPacket s pa).slot1 = .instr (.ll p off rd rs))

/-- No step changes a parameter of the implementation (R5). -/
def Obligations.ParametersNeverChange : Prop := ∀ s t : State, step s = .next t → t.params = s.params
end

