-- ==== Sys2Proof/Laws/Memory.lean ====
section
/-! SUPPORT. The laws of RAM: a read after a write, and that every memory operation keeps the canonical form and stays
inside RAM. The read laws hold of every list, canonical or not. -/

namespace Sys2Proof.Machine

theorem Memory.read_nil (x : Nat) : Memory.read [] x = Memory.unlisted := rfl

theorem Memory.read_cons (a : Nat) (b : Byte) (m : Memory) (x : Nat) :
    Memory.read ((a, b) :: m) x = if x = a then b else Memory.read m x := rfl

/-- Dropping an address makes it read as unlisted and leaves every other address alone. -/
theorem Memory.read_filter (m : Memory) (x y : Nat) :
    Memory.read (m.filter (fun c => decide (c.1 ≠ x))) y = if y = x then Memory.unlisted else Memory.read m y := by
  induction m with
  | nil => simp [Memory.read_nil]
  | cons c m ih =>
    obtain ⟨a, b⟩ := c
    by_cases hax : a = x
    · subst hax
      rw [List.filter_cons_of_neg (by simp), ih]
      by_cases hy : y = a <;> simp [Memory.read_cons, hy]
    · rw [List.filter_cons_of_pos (by simp [hax]), Memory.read_cons, Memory.read_cons, ih]
      by_cases hya : y = a
      · subst hya; simp [hax]
      · simp [hya]

/-- Inserting a cell at an address that no cell has puts its byte there and leaves every other address alone. -/
theorem Memory.read_insert (m : Memory) (x : Nat) (v : Byte) (y : Nat) (hx : ∀ c ∈ m, c.1 ≠ x) :
    Memory.read (m.insert x v) y = if y = x then v else Memory.read m y := by
  induction m with
  | nil => simp [Memory.insert, Memory.read_cons]
  | cons c m ih =>
    obtain ⟨a, b⟩ := c
    have ha : a ≠ x := hx (a, b) (by simp)
    have ih' := ih (fun c hc => hx c (List.mem_cons_of_mem _ hc))
    unfold Memory.insert
    split
    · simp [Memory.read_cons]
    · rw [Memory.read_cons, Memory.read_cons, ih']
      by_cases hya : y = a
      · subst hya; simp [ha]
      · simp [hya]

/-- Everything a byte write does to reads. -/
theorem Memory.read_write (m : Memory) (x : Nat) (v : Byte) (y : Nat) :
    (m.write x v).read y = if y = x then v else m.read y := by
  unfold Memory.write
  by_cases hv : v = Memory.unlisted
  · simp only [hv, if_true, Memory.read_filter]
  · simp only [hv, if_false]
    rw [Memory.read_insert _ _ _ _ (by intro c hc; simpa using (List.mem_filter.mp hc).2), Memory.read_filter]
    by_cases hy : y = x <;> simp [hy]

@[simp] theorem Memory.read_write_self (m : Memory) (x : Nat) (v : Byte) : (m.write x v).read x = v := by
  simp [Memory.read_write]

theorem Memory.read_write_ne (m : Memory) {x y : Nat} (v : Byte) (h : y ≠ x) : (m.write x v).read y = m.read y := by
  simp [Memory.read_write, h]

/-- A sized store leaves every byte outside its range alone (20_memory.md R44). -/
theorem Memory.read_writeSized_outside (m : Memory) (a : Nat) (sz : Size) (v : Word) (y : Nat)
    (h : y < a ∨ a + sz.bytes ≤ y) : (m.writeSized a sz v).read y = m.read y := by
  cases sz <;> simp only [Memory.writeSized, Size.bytes] at * <;> simp only [Memory.read_write] <;>
    (repeat rw [if_neg (by omega)])

/-- Two adjacent fields of a word, joined, are one field. -/
theorem extract_append_extract (v : Word) (lo m n : Nat) :
    v.extractLsb' (lo + n) m ++ v.extractLsb' lo n = v.extractLsb' lo (m + n) := by
  apply BitVec.eq_of_getLsbD_eq
  intro i hi
  simp only [BitVec.getLsbD_append, BitVec.getLsbD_extractLsb', hi, decide_true, Bool.true_and]
  by_cases h : i < n
  · simp [h]
  · have h1 : i - n < m := by omega
    have h2 : lo + n + (i - n) = lo + i := by omega
    simp [h, h1, h2]

/-- A sized load after a sized store at the same place gives the stored bytes, zero-extended (20_memory.md R44). -/
theorem Memory.readSized_writeSized (m : Memory) (a : Nat) (sz : Size) (v : Word) :
    (m.writeSized a sz v).readSized a sz = sz.truncate v := by
  cases sz
  · simp [Memory.writeSized, Memory.readSized, Size.truncate]
  · have h := extract_append_extract v 0 8 8
    simp only [Memory.writeSized, Memory.readSized, Size.truncate, Memory.read_write]
    simp only [Nat.zero_add] at h
    simp [h]
  · have h1 := extract_append_extract v 16 8 8
    have h2 := extract_append_extract v 8 16 8
    have h3 := extract_append_extract v 0 24 8
    simp only [Nat.zero_add] at h3
    simp only [Memory.writeSized, Memory.readSized, Memory.readWord, Size.truncate, Memory.read_write]
    simp [h1, h2, h3]

/-- Inserting lists nothing new but its own cell. -/
theorem Memory.mem_insert {m : Memory} {x : Nat} {v : Byte} {c : Host.Cell} (h : c ∈ m.insert x v) :
    c = (x, v) ∨ c ∈ m := by
  induction m with
  | nil => simpa [Memory.insert] using h
  | cons d m ih =>
    obtain ⟨a, b⟩ := d
    unfold Memory.insert at h
    split at h
    · simpa using h
    · rcases List.mem_cons.mp h with h | h
      · exact .inr (by simp [h])
      · rcases ih h with h | h
        · exact .inl h
        · exact .inr (List.mem_cons_of_mem _ h)

/-- A write lists nothing new but its own address. -/
theorem Memory.mem_write {m : Memory} {x : Nat} {v : Byte} {c : Host.Cell} (h : c ∈ m.write x v) :
    c.1 = x ∨ c ∈ m := by
  unfold Memory.write at h
  dsimp only at h
  split at h
  · exact .inr (List.mem_filter.mp h).1
  · rcases Memory.mem_insert h with h | h
    · exact .inl (by rw [h])
    · exact .inr (List.mem_filter.mp h).1

/-- A sized write inside a bound keeps every listed address below the bound. -/
theorem Memory.writeSized_bound {m : Memory} {a : Nat} {sz : Size} {v : Word} {n : Nat}
    (hm : ∀ c ∈ m, c.1 < n) (ha : a + sz.bytes ≤ n) : ∀ c ∈ m.writeSized a sz v, c.1 < n := by
  intro c hc
  cases sz <;> simp only [Memory.writeSized, Size.bytes] at hc ha
  · rcases Memory.mem_write hc with h | h
    · omega
    · exact hm c h
  · rcases Memory.mem_write hc with h | h
    · omega
    · rcases Memory.mem_write h with h | h
      · omega
      · exact hm c h
  · rcases Memory.mem_write hc with h | h
    · omega
    · rcases Memory.mem_write h with h | h
      · omega
      · rcases Memory.mem_write h with h | h
        · omega
        · rcases Memory.mem_write h with h | h
          · omega
          · exact hm c h

/-- The canonical form, as a sorted list without unlisted-valued bytes. -/
theorem Memory.wf_iff (m : Memory) :
    m.wf = true ↔ m.Pairwise (fun c d => c.1 < d.1) ∧ ∀ c ∈ m, c.2 ≠ Memory.unlisted := by
  induction m with
  | nil => simp [Memory.wf]
  | cons c m ih =>
    obtain ⟨a, b⟩ := c
    cases m with
    | nil => simp [Memory.wf]
    | cons d m =>
      obtain ⟨a', b'⟩ := d
      have hw : Memory.wf ((a, b) :: (a', b') :: m) =
          (decide (a < a') && decide (b ≠ Memory.unlisted) && Memory.wf ((a', b') :: m)) := rfl
      rw [hw, Bool.and_eq_true, Bool.and_eq_true, decide_eq_true_iff, decide_eq_true_iff, ih,
        List.pairwise_cons (a := (a, b)), List.forall_mem_cons (a := (a, b))]
      constructor
      · rintro ⟨⟨hlt, hb⟩, hp, hall⟩
        refine ⟨⟨?_, hp⟩, hb, hall⟩
        intro e he
        rcases List.mem_cons.mp he with rfl | he
        · exact hlt
        · exact lt_trans hlt ((List.pairwise_cons.mp hp).1 e he)
      · rintro ⟨⟨hlt, hp⟩, hb, hall⟩
        exact ⟨⟨hlt (a', b') (by simp), hb⟩, hp, hall⟩

theorem Memory.insert_pairwise (m : Memory) (x : Nat) (v : Byte)
    (hp : m.Pairwise (fun c d => c.1 < d.1)) (hx : ∀ c ∈ m, c.1 ≠ x) :
    (m.insert x v).Pairwise (fun c d => c.1 < d.1) := by
  induction m with
  | nil => simp [Memory.insert]
  | cons c m ih =>
    obtain ⟨a, b⟩ := c
    have ha : a ≠ x := hx (a, b) (by simp)
    obtain ⟨h1, h2⟩ := List.pairwise_cons.mp hp
    unfold Memory.insert
    split
    · rename_i hlt
      refine List.pairwise_cons.mpr ⟨?_, hp⟩
      intro e he
      rcases List.mem_cons.mp he with rfl | he
      · exact hlt
      · exact lt_trans hlt (h1 e he)
    · refine List.pairwise_cons.mpr ⟨?_, ih h2 (fun c hc => hx c (List.mem_cons_of_mem _ hc))⟩
      intro e he
      rcases Memory.mem_insert he with rfl | he
      · show a < x; omega
      · exact h1 e he

/-- A byte write keeps the canonical form. -/
theorem Memory.write_wf (m : Memory) (x : Nat) (v : Byte) (h : m.wf = true) : (m.write x v).wf = true := by
  rw [Memory.wf_iff] at h ⊢
  obtain ⟨hp, hall⟩ := h
  have hp' : (m.filter (fun c => decide (c.1 ≠ x))).Pairwise (fun c d => c.1 < d.1) := hp.filter _
  have hall' : ∀ c ∈ m.filter (fun c => decide (c.1 ≠ x)), c.2 ≠ Memory.unlisted :=
    fun c hc => hall c (List.mem_filter.mp hc).1
  unfold Memory.write
  dsimp only
  split
  · exact ⟨hp', hall'⟩
  · rename_i hv
    refine ⟨Memory.insert_pairwise _ _ _ hp' (fun c hc => by simpa using (List.mem_filter.mp hc).2), ?_⟩
    intro c hc
    rcases Memory.mem_insert hc with rfl | hc
    · exact hv
    · exact hall' c hc

/-- A sized write keeps the canonical form. -/
theorem Memory.writeSized_wf (m : Memory) (a : Nat) (sz : Size) (v : Word) (h : m.wf = true) :
    (m.writeSized a sz v).wf = true := by
  cases sz <;> simp only [Memory.writeSized] <;> (repeat apply Memory.write_wf) <;> exact h

/-- An older value kept by `add` is the new one or was kept before. -/
theorem Versions.mem_add {vs : Versions} {a : Nat} {w : Word} {v : Nat × Word} :
    v ∈ vs.add a w ↔ v = (a, w) ∨ v ∈ vs := by
  unfold Versions.add
  split
  · constructor
    · exact .inr
    · rintro (rfl | h)
      · assumption
      · exact h
  · exact List.mem_cons

theorem Versions.mem_dropLine {vs : Versions} {a : Nat} {v : Nat × Word} :
    v ∈ vs.dropLine a ↔ v ∈ vs ∧ lineOf v.1 ≠ lineOf a := by simp [Versions.dropLine]

theorem Versions.mem_inLine {vs : Versions} {a : Nat} {v : Nat × Word} :
    v ∈ vs.inLine a ↔ v ∈ vs ∧ lineOf v.1 = lineOf a := by simp [Versions.inLine]

theorem Versions.mem_at {vs : Versions} {a : Nat} {w : Word} : w ∈ vs.at a ↔ (a, w) ∈ vs := by
  unfold Versions.at
  rw [List.mem_map]
  constructor
  · rintro ⟨⟨b, u⟩, h, rfl⟩
    rw [List.mem_filter, decide_eq_true_iff] at h
    obtain ⟨h, rfl⟩ := h
    exact h
  · intro h
    exact ⟨(a, w), List.mem_filter.mpr ⟨h, by simp⟩, rfl⟩

/-- A pick gives the current value or an older one, and nothing else. -/
theorem admitted_cases (current : Word) (older : List Word) (pick : Nat) :
    admitted current older pick = current ∨ admitted current older pick ∈ older := by
  unfold admitted
  by_cases h : pick < older.length
  · exact .inr (by simp [List.getD_eq_getElem?_getD, h])
  · exact .inl (by simp [List.getD_eq_getElem?_getD, h])

/-- A word with no older value has one admitted value, the current one. -/
@[simp] theorem admitted_nil (current : Word) (pick : Nat) : admitted current [] pick = current := rfl

end Sys2Proof.Machine
end

