-- ==== Sys2Proof/Laws/State.lean ====
section
/-! SUPPORT. The state's updates, field by field: what each named operation of Machine/Ops.lean does to each field, so
that no proof unfolds a record update. -/

namespace Sys2Proof.Machine

@[simp] theorem writeReg_params (s : State) (r : Reg) (v : Word) : (s.writeReg r v).params = s.params := rfl
@[simp] theorem writeReg_regs (s : State) (r : Reg) (v : Word) : (s.writeReg r v).regs = s.regs.set r.val v := rfl
@[simp] theorem writeReg_pc (s : State) (r : Reg) (v : Word) : (s.writeReg r v).pc = s.pc := rfl
@[simp] theorem writeReg_p0 (s : State) (r : Reg) (v : Word) : (s.writeReg r v).p0 = s.p0 := rfl
@[simp] theorem writeReg_p1 (s : State) (r : Reg) (v : Word) : (s.writeReg r v).p1 = s.p1 := rfl
@[simp] theorem writeReg_p2 (s : State) (r : Reg) (v : Word) : (s.writeReg r v).p2 = s.p2 := rfl
@[simp] theorem writeReg_ovf (s : State) (r : Reg) (v : Word) : (s.writeReg r v).ovf = s.ovf := rfl
@[simp] theorem writeReg_mode (s : State) (r : Reg) (v : Word) : (s.writeReg r v).mode = s.mode := rfl
@[simp] theorem writeReg_link (s : State) (r : Reg) (v : Word) : (s.writeReg r v).link = s.link := rfl
@[simp] theorem writeReg_pflags (s : State) (r : Reg) (v : Word) : (s.writeReg r v).pflags = s.pflags := rfl
@[simp] theorem writeReg_ptb (s : State) (r : Reg) (v : Word) : (s.writeReg r v).ptb = s.ptb := rfl
@[simp] theorem writeReg_eha (s : State) (r : Reg) (v : Word) : (s.writeReg r v).eha = s.eha := rfl
@[simp] theorem writeReg_epc (s : State) (r : Reg) (v : Word) : (s.writeReg r v).epc = s.epc := rfl
@[simp] theorem writeReg_ec0 (s : State) (r : Reg) (v : Word) : (s.writeReg r v).ec0 = s.ec0 := rfl
@[simp] theorem writeReg_ec1 (s : State) (r : Reg) (v : Word) : (s.writeReg r v).ec1 = s.ec1 := rfl
@[simp] theorem writeReg_ec2 (s : State) (r : Reg) (v : Word) : (s.writeReg r v).ec2 = s.ec2 := rfl
@[simp] theorem writeReg_ec3 (s : State) (r : Reg) (v : Word) : (s.writeReg r v).ec3 = s.ec3 := rfl
@[simp] theorem writeReg_ea0 (s : State) (r : Reg) (v : Word) : (s.writeReg r v).ea0 = s.ea0 := rfl
@[simp] theorem writeReg_ea1 (s : State) (r : Reg) (v : Word) : (s.writeReg r v).ea1 = s.ea1 := rfl
@[simp] theorem writeReg_sp0 (s : State) (r : Reg) (v : Word) : (s.writeReg r v).sp0 = s.sp0 := rfl
@[simp] theorem writeReg_sp1 (s : State) (r : Reg) (v : Word) : (s.writeReg r v).sp1 = s.sp1 := rfl
@[simp] theorem writeReg_sp2 (s : State) (r : Reg) (v : Word) : (s.writeReg r v).sp2 = s.sp2 := rfl
@[simp] theorem writeReg_sp3 (s : State) (r : Reg) (v : Word) : (s.writeReg r v).sp3 = s.sp3 := rfl
@[simp] theorem writeReg_mem (s : State) (r : Reg) (v : Word) : (s.writeReg r v).mem = s.mem := rfl
@[simp] theorem writeReg_l2Old (s : State) (r : Reg) (v : Word) : (s.writeReg r v).l2Old = s.l2Old := rfl
@[simp] theorem writeReg_l1iOld (s : State) (r : Reg) (v : Word) : (s.writeReg r v).l1iOld = s.l1iOld := rfl
@[simp] theorem writeReg_dtlb (s : State) (r : Reg) (v : Word) : (s.writeReg r v).dtlb = s.dtlb := rfl
@[simp] theorem writeReg_itlb (s : State) (r : Reg) (v : Word) : (s.writeReg r v).itlb = s.itlb := rfl
@[simp] theorem writeReg_irq (s : State) (r : Reg) (v : Word) : (s.writeReg r v).irq = s.irq := rfl
@[simp] theorem writeReg_periphLog (s : State) (r : Reg) (v : Word) : (s.writeReg r v).periphLog = s.periphLog := rfl
@[simp] theorem writeReg_tick (s : State) (r : Reg) (v : Word) : (s.writeReg r v).tick = s.tick := rfl

@[simp] theorem setIe_params (s : State) (b : Bool) : (s.setIe b).params = s.params := rfl
@[simp] theorem setIe_regs (s : State) (b : Bool) : (s.setIe b).regs = s.regs := rfl
@[simp] theorem setIe_pc (s : State) (b : Bool) : (s.setIe b).pc = s.pc := rfl
@[simp] theorem setIe_p0 (s : State) (b : Bool) : (s.setIe b).p0 = s.p0 := rfl
@[simp] theorem setIe_p1 (s : State) (b : Bool) : (s.setIe b).p1 = s.p1 := rfl
@[simp] theorem setIe_p2 (s : State) (b : Bool) : (s.setIe b).p2 = s.p2 := rfl
@[simp] theorem setIe_ovf (s : State) (b : Bool) : (s.setIe b).ovf = s.ovf := rfl
@[simp] theorem setIe_mode (s : State) (b : Bool) : (s.setIe b).mode = s.mode := rfl
@[simp] theorem setIe_link (s : State) (b : Bool) : (s.setIe b).link = s.link := rfl
@[simp] theorem setIe_pflags (s : State) (b : Bool) : (s.setIe b).pflags = (s.pflags &&& 0xFFFFFFFE#32) ||| (BitVec.ofBool b).zeroExtend 32 := rfl
@[simp] theorem setIe_ptb (s : State) (b : Bool) : (s.setIe b).ptb = s.ptb := rfl
@[simp] theorem setIe_eha (s : State) (b : Bool) : (s.setIe b).eha = s.eha := rfl
@[simp] theorem setIe_epc (s : State) (b : Bool) : (s.setIe b).epc = s.epc := rfl
@[simp] theorem setIe_ec0 (s : State) (b : Bool) : (s.setIe b).ec0 = s.ec0 := rfl
@[simp] theorem setIe_ec1 (s : State) (b : Bool) : (s.setIe b).ec1 = s.ec1 := rfl
@[simp] theorem setIe_ec2 (s : State) (b : Bool) : (s.setIe b).ec2 = s.ec2 := rfl
@[simp] theorem setIe_ec3 (s : State) (b : Bool) : (s.setIe b).ec3 = s.ec3 := rfl
@[simp] theorem setIe_ea0 (s : State) (b : Bool) : (s.setIe b).ea0 = s.ea0 := rfl
@[simp] theorem setIe_ea1 (s : State) (b : Bool) : (s.setIe b).ea1 = s.ea1 := rfl
@[simp] theorem setIe_sp0 (s : State) (b : Bool) : (s.setIe b).sp0 = s.sp0 := rfl
@[simp] theorem setIe_sp1 (s : State) (b : Bool) : (s.setIe b).sp1 = s.sp1 := rfl
@[simp] theorem setIe_sp2 (s : State) (b : Bool) : (s.setIe b).sp2 = s.sp2 := rfl
@[simp] theorem setIe_sp3 (s : State) (b : Bool) : (s.setIe b).sp3 = s.sp3 := rfl
@[simp] theorem setIe_mem (s : State) (b : Bool) : (s.setIe b).mem = s.mem := rfl
@[simp] theorem setIe_l2Old (s : State) (b : Bool) : (s.setIe b).l2Old = s.l2Old := rfl
@[simp] theorem setIe_l1iOld (s : State) (b : Bool) : (s.setIe b).l1iOld = s.l1iOld := rfl
@[simp] theorem setIe_dtlb (s : State) (b : Bool) : (s.setIe b).dtlb = s.dtlb := rfl
@[simp] theorem setIe_itlb (s : State) (b : Bool) : (s.setIe b).itlb = s.itlb := rfl
@[simp] theorem setIe_irq (s : State) (b : Bool) : (s.setIe b).irq = s.irq := rfl
@[simp] theorem setIe_periphLog (s : State) (b : Bool) : (s.setIe b).periphLog = s.periphLog := rfl
@[simp] theorem setIe_tick (s : State) (b : Bool) : (s.setIe b).tick = s.tick := rfl

@[simp] theorem storeRam_params (s : State) (pa : Word) (sz : Size) (v : Word) : (s.storeRam pa sz v).params = s.params := rfl
@[simp] theorem storeRam_regs (s : State) (pa : Word) (sz : Size) (v : Word) : (s.storeRam pa sz v).regs = s.regs := rfl
@[simp] theorem storeRam_pc (s : State) (pa : Word) (sz : Size) (v : Word) : (s.storeRam pa sz v).pc = s.pc := rfl
@[simp] theorem storeRam_p0 (s : State) (pa : Word) (sz : Size) (v : Word) : (s.storeRam pa sz v).p0 = s.p0 := rfl
@[simp] theorem storeRam_p1 (s : State) (pa : Word) (sz : Size) (v : Word) : (s.storeRam pa sz v).p1 = s.p1 := rfl
@[simp] theorem storeRam_p2 (s : State) (pa : Word) (sz : Size) (v : Word) : (s.storeRam pa sz v).p2 = s.p2 := rfl
@[simp] theorem storeRam_ovf (s : State) (pa : Word) (sz : Size) (v : Word) : (s.storeRam pa sz v).ovf = s.ovf := rfl
@[simp] theorem storeRam_mode (s : State) (pa : Word) (sz : Size) (v : Word) : (s.storeRam pa sz v).mode = s.mode := rfl
@[simp] theorem storeRam_link (s : State) (pa : Word) (sz : Size) (v : Word) : (s.storeRam pa sz v).link = s.link := rfl
@[simp] theorem storeRam_pflags (s : State) (pa : Word) (sz : Size) (v : Word) : (s.storeRam pa sz v).pflags = s.pflags := rfl
@[simp] theorem storeRam_ptb (s : State) (pa : Word) (sz : Size) (v : Word) : (s.storeRam pa sz v).ptb = s.ptb := rfl
@[simp] theorem storeRam_eha (s : State) (pa : Word) (sz : Size) (v : Word) : (s.storeRam pa sz v).eha = s.eha := rfl
@[simp] theorem storeRam_epc (s : State) (pa : Word) (sz : Size) (v : Word) : (s.storeRam pa sz v).epc = s.epc := rfl
@[simp] theorem storeRam_ec0 (s : State) (pa : Word) (sz : Size) (v : Word) : (s.storeRam pa sz v).ec0 = s.ec0 := rfl
@[simp] theorem storeRam_ec1 (s : State) (pa : Word) (sz : Size) (v : Word) : (s.storeRam pa sz v).ec1 = s.ec1 := rfl
@[simp] theorem storeRam_ec2 (s : State) (pa : Word) (sz : Size) (v : Word) : (s.storeRam pa sz v).ec2 = s.ec2 := rfl
@[simp] theorem storeRam_ec3 (s : State) (pa : Word) (sz : Size) (v : Word) : (s.storeRam pa sz v).ec3 = s.ec3 := rfl
@[simp] theorem storeRam_ea0 (s : State) (pa : Word) (sz : Size) (v : Word) : (s.storeRam pa sz v).ea0 = s.ea0 := rfl
@[simp] theorem storeRam_ea1 (s : State) (pa : Word) (sz : Size) (v : Word) : (s.storeRam pa sz v).ea1 = s.ea1 := rfl
@[simp] theorem storeRam_sp0 (s : State) (pa : Word) (sz : Size) (v : Word) : (s.storeRam pa sz v).sp0 = s.sp0 := rfl
@[simp] theorem storeRam_sp1 (s : State) (pa : Word) (sz : Size) (v : Word) : (s.storeRam pa sz v).sp1 = s.sp1 := rfl
@[simp] theorem storeRam_sp2 (s : State) (pa : Word) (sz : Size) (v : Word) : (s.storeRam pa sz v).sp2 = s.sp2 := rfl
@[simp] theorem storeRam_sp3 (s : State) (pa : Word) (sz : Size) (v : Word) : (s.storeRam pa sz v).sp3 = s.sp3 := rfl
@[simp] theorem storeRam_mem (s : State) (pa : Word) (sz : Size) (v : Word) : (s.storeRam pa sz v).mem = s.mem.writeSized pa.toNat sz v := rfl
@[simp] theorem storeRam_l2Old (s : State) (pa : Word) (sz : Size) (v : Word) : (s.storeRam pa sz v).l2Old = s.l2Old.add (wordAddr pa) (s.mem.readWord (wordAddr pa)) := rfl
@[simp] theorem storeRam_l1iOld (s : State) (pa : Word) (sz : Size) (v : Word) : (s.storeRam pa sz v).l1iOld = s.l1iOld.add (wordAddr pa) (s.mem.readWord (wordAddr pa)) := rfl
@[simp] theorem storeRam_dtlb (s : State) (pa : Word) (sz : Size) (v : Word) : (s.storeRam pa sz v).dtlb = s.dtlb := rfl
@[simp] theorem storeRam_itlb (s : State) (pa : Word) (sz : Size) (v : Word) : (s.storeRam pa sz v).itlb = s.itlb := rfl
@[simp] theorem storeRam_irq (s : State) (pa : Word) (sz : Size) (v : Word) : (s.storeRam pa sz v).irq = s.irq := rfl
@[simp] theorem storeRam_periphLog (s : State) (pa : Word) (sz : Size) (v : Word) : (s.storeRam pa sz v).periphLog = s.periphLog := rfl
@[simp] theorem storeRam_tick (s : State) (pa : Word) (sz : Size) (v : Word) : (s.storeRam pa sz v).tick = s.tick := rfl

@[simp] theorem logEvent_params (s : State) (e : PeriphEvent) : (s.logEvent e).params = s.params := rfl
@[simp] theorem logEvent_regs (s : State) (e : PeriphEvent) : (s.logEvent e).regs = s.regs := rfl
@[simp] theorem logEvent_pc (s : State) (e : PeriphEvent) : (s.logEvent e).pc = s.pc := rfl
@[simp] theorem logEvent_p0 (s : State) (e : PeriphEvent) : (s.logEvent e).p0 = s.p0 := rfl
@[simp] theorem logEvent_p1 (s : State) (e : PeriphEvent) : (s.logEvent e).p1 = s.p1 := rfl
@[simp] theorem logEvent_p2 (s : State) (e : PeriphEvent) : (s.logEvent e).p2 = s.p2 := rfl
@[simp] theorem logEvent_ovf (s : State) (e : PeriphEvent) : (s.logEvent e).ovf = s.ovf := rfl
@[simp] theorem logEvent_mode (s : State) (e : PeriphEvent) : (s.logEvent e).mode = s.mode := rfl
@[simp] theorem logEvent_link (s : State) (e : PeriphEvent) : (s.logEvent e).link = s.link := rfl
@[simp] theorem logEvent_pflags (s : State) (e : PeriphEvent) : (s.logEvent e).pflags = s.pflags := rfl
@[simp] theorem logEvent_ptb (s : State) (e : PeriphEvent) : (s.logEvent e).ptb = s.ptb := rfl
@[simp] theorem logEvent_eha (s : State) (e : PeriphEvent) : (s.logEvent e).eha = s.eha := rfl
@[simp] theorem logEvent_epc (s : State) (e : PeriphEvent) : (s.logEvent e).epc = s.epc := rfl
@[simp] theorem logEvent_ec0 (s : State) (e : PeriphEvent) : (s.logEvent e).ec0 = s.ec0 := rfl
@[simp] theorem logEvent_ec1 (s : State) (e : PeriphEvent) : (s.logEvent e).ec1 = s.ec1 := rfl
@[simp] theorem logEvent_ec2 (s : State) (e : PeriphEvent) : (s.logEvent e).ec2 = s.ec2 := rfl
@[simp] theorem logEvent_ec3 (s : State) (e : PeriphEvent) : (s.logEvent e).ec3 = s.ec3 := rfl
@[simp] theorem logEvent_ea0 (s : State) (e : PeriphEvent) : (s.logEvent e).ea0 = s.ea0 := rfl
@[simp] theorem logEvent_ea1 (s : State) (e : PeriphEvent) : (s.logEvent e).ea1 = s.ea1 := rfl
@[simp] theorem logEvent_sp0 (s : State) (e : PeriphEvent) : (s.logEvent e).sp0 = s.sp0 := rfl
@[simp] theorem logEvent_sp1 (s : State) (e : PeriphEvent) : (s.logEvent e).sp1 = s.sp1 := rfl
@[simp] theorem logEvent_sp2 (s : State) (e : PeriphEvent) : (s.logEvent e).sp2 = s.sp2 := rfl
@[simp] theorem logEvent_sp3 (s : State) (e : PeriphEvent) : (s.logEvent e).sp3 = s.sp3 := rfl
@[simp] theorem logEvent_mem (s : State) (e : PeriphEvent) : (s.logEvent e).mem = s.mem := rfl
@[simp] theorem logEvent_l2Old (s : State) (e : PeriphEvent) : (s.logEvent e).l2Old = s.l2Old := rfl
@[simp] theorem logEvent_l1iOld (s : State) (e : PeriphEvent) : (s.logEvent e).l1iOld = s.l1iOld := rfl
@[simp] theorem logEvent_dtlb (s : State) (e : PeriphEvent) : (s.logEvent e).dtlb = s.dtlb := rfl
@[simp] theorem logEvent_itlb (s : State) (e : PeriphEvent) : (s.logEvent e).itlb = s.itlb := rfl
@[simp] theorem logEvent_irq (s : State) (e : PeriphEvent) : (s.logEvent e).irq = s.irq := rfl
@[simp] theorem logEvent_periphLog (s : State) (e : PeriphEvent) : (s.logEvent e).periphLog = s.periphLog ++ [e] := rfl
@[simp] theorem logEvent_tick (s : State) (e : PeriphEvent) : (s.logEvent e).tick = s.tick := rfl

@[simp] theorem flushDataLine_params (s : State) (pa : Word) : (s.flushDataLine pa).params = s.params := rfl
@[simp] theorem flushDataLine_regs (s : State) (pa : Word) : (s.flushDataLine pa).regs = s.regs := rfl
@[simp] theorem flushDataLine_pc (s : State) (pa : Word) : (s.flushDataLine pa).pc = s.pc := rfl
@[simp] theorem flushDataLine_p0 (s : State) (pa : Word) : (s.flushDataLine pa).p0 = s.p0 := rfl
@[simp] theorem flushDataLine_p1 (s : State) (pa : Word) : (s.flushDataLine pa).p1 = s.p1 := rfl
@[simp] theorem flushDataLine_p2 (s : State) (pa : Word) : (s.flushDataLine pa).p2 = s.p2 := rfl
@[simp] theorem flushDataLine_ovf (s : State) (pa : Word) : (s.flushDataLine pa).ovf = s.ovf := rfl
@[simp] theorem flushDataLine_mode (s : State) (pa : Word) : (s.flushDataLine pa).mode = s.mode := rfl
@[simp] theorem flushDataLine_link (s : State) (pa : Word) : (s.flushDataLine pa).link = s.link := rfl
@[simp] theorem flushDataLine_pflags (s : State) (pa : Word) : (s.flushDataLine pa).pflags = s.pflags := rfl
@[simp] theorem flushDataLine_ptb (s : State) (pa : Word) : (s.flushDataLine pa).ptb = s.ptb := rfl
@[simp] theorem flushDataLine_eha (s : State) (pa : Word) : (s.flushDataLine pa).eha = s.eha := rfl
@[simp] theorem flushDataLine_epc (s : State) (pa : Word) : (s.flushDataLine pa).epc = s.epc := rfl
@[simp] theorem flushDataLine_ec0 (s : State) (pa : Word) : (s.flushDataLine pa).ec0 = s.ec0 := rfl
@[simp] theorem flushDataLine_ec1 (s : State) (pa : Word) : (s.flushDataLine pa).ec1 = s.ec1 := rfl
@[simp] theorem flushDataLine_ec2 (s : State) (pa : Word) : (s.flushDataLine pa).ec2 = s.ec2 := rfl
@[simp] theorem flushDataLine_ec3 (s : State) (pa : Word) : (s.flushDataLine pa).ec3 = s.ec3 := rfl
@[simp] theorem flushDataLine_ea0 (s : State) (pa : Word) : (s.flushDataLine pa).ea0 = s.ea0 := rfl
@[simp] theorem flushDataLine_ea1 (s : State) (pa : Word) : (s.flushDataLine pa).ea1 = s.ea1 := rfl
@[simp] theorem flushDataLine_sp0 (s : State) (pa : Word) : (s.flushDataLine pa).sp0 = s.sp0 := rfl
@[simp] theorem flushDataLine_sp1 (s : State) (pa : Word) : (s.flushDataLine pa).sp1 = s.sp1 := rfl
@[simp] theorem flushDataLine_sp2 (s : State) (pa : Word) : (s.flushDataLine pa).sp2 = s.sp2 := rfl
@[simp] theorem flushDataLine_sp3 (s : State) (pa : Word) : (s.flushDataLine pa).sp3 = s.sp3 := rfl
@[simp] theorem flushDataLine_mem (s : State) (pa : Word) : (s.flushDataLine pa).mem = s.mem := rfl
@[simp] theorem flushDataLine_l2Old (s : State) (pa : Word) : (s.flushDataLine pa).l2Old = s.l2Old.dropLine pa.toNat := rfl
@[simp] theorem flushDataLine_l1iOld (s : State) (pa : Word) : (s.flushDataLine pa).l1iOld = s.l1iOld := rfl
@[simp] theorem flushDataLine_dtlb (s : State) (pa : Word) : (s.flushDataLine pa).dtlb = s.dtlb := rfl
@[simp] theorem flushDataLine_itlb (s : State) (pa : Word) : (s.flushDataLine pa).itlb = s.itlb := rfl
@[simp] theorem flushDataLine_irq (s : State) (pa : Word) : (s.flushDataLine pa).irq = s.irq := rfl
@[simp] theorem flushDataLine_periphLog (s : State) (pa : Word) : (s.flushDataLine pa).periphLog = s.periphLog := rfl
@[simp] theorem flushDataLine_tick (s : State) (pa : Word) : (s.flushDataLine pa).tick = s.tick := rfl

@[simp] theorem flushInstLine_params (s : State) (pa : Word) : (s.flushInstLine pa).params = s.params := rfl
@[simp] theorem flushInstLine_regs (s : State) (pa : Word) : (s.flushInstLine pa).regs = s.regs := rfl
@[simp] theorem flushInstLine_pc (s : State) (pa : Word) : (s.flushInstLine pa).pc = s.pc := rfl
@[simp] theorem flushInstLine_p0 (s : State) (pa : Word) : (s.flushInstLine pa).p0 = s.p0 := rfl
@[simp] theorem flushInstLine_p1 (s : State) (pa : Word) : (s.flushInstLine pa).p1 = s.p1 := rfl
@[simp] theorem flushInstLine_p2 (s : State) (pa : Word) : (s.flushInstLine pa).p2 = s.p2 := rfl
@[simp] theorem flushInstLine_ovf (s : State) (pa : Word) : (s.flushInstLine pa).ovf = s.ovf := rfl
@[simp] theorem flushInstLine_mode (s : State) (pa : Word) : (s.flushInstLine pa).mode = s.mode := rfl
@[simp] theorem flushInstLine_link (s : State) (pa : Word) : (s.flushInstLine pa).link = s.link := rfl
@[simp] theorem flushInstLine_pflags (s : State) (pa : Word) : (s.flushInstLine pa).pflags = s.pflags := rfl
@[simp] theorem flushInstLine_ptb (s : State) (pa : Word) : (s.flushInstLine pa).ptb = s.ptb := rfl
@[simp] theorem flushInstLine_eha (s : State) (pa : Word) : (s.flushInstLine pa).eha = s.eha := rfl
@[simp] theorem flushInstLine_epc (s : State) (pa : Word) : (s.flushInstLine pa).epc = s.epc := rfl
@[simp] theorem flushInstLine_ec0 (s : State) (pa : Word) : (s.flushInstLine pa).ec0 = s.ec0 := rfl
@[simp] theorem flushInstLine_ec1 (s : State) (pa : Word) : (s.flushInstLine pa).ec1 = s.ec1 := rfl
@[simp] theorem flushInstLine_ec2 (s : State) (pa : Word) : (s.flushInstLine pa).ec2 = s.ec2 := rfl
@[simp] theorem flushInstLine_ec3 (s : State) (pa : Word) : (s.flushInstLine pa).ec3 = s.ec3 := rfl
@[simp] theorem flushInstLine_ea0 (s : State) (pa : Word) : (s.flushInstLine pa).ea0 = s.ea0 := rfl
@[simp] theorem flushInstLine_ea1 (s : State) (pa : Word) : (s.flushInstLine pa).ea1 = s.ea1 := rfl
@[simp] theorem flushInstLine_sp0 (s : State) (pa : Word) : (s.flushInstLine pa).sp0 = s.sp0 := rfl
@[simp] theorem flushInstLine_sp1 (s : State) (pa : Word) : (s.flushInstLine pa).sp1 = s.sp1 := rfl
@[simp] theorem flushInstLine_sp2 (s : State) (pa : Word) : (s.flushInstLine pa).sp2 = s.sp2 := rfl
@[simp] theorem flushInstLine_sp3 (s : State) (pa : Word) : (s.flushInstLine pa).sp3 = s.sp3 := rfl
@[simp] theorem flushInstLine_mem (s : State) (pa : Word) : (s.flushInstLine pa).mem = s.mem := rfl
@[simp] theorem flushInstLine_l2Old (s : State) (pa : Word) : (s.flushInstLine pa).l2Old = s.l2Old := rfl
@[simp] theorem flushInstLine_l1iOld (s : State) (pa : Word) : (s.flushInstLine pa).l1iOld = s.l1iOld.dropLine pa.toNat ++ s.l2Old.inLine pa.toNat := rfl
@[simp] theorem flushInstLine_dtlb (s : State) (pa : Word) : (s.flushInstLine pa).dtlb = s.dtlb := rfl
@[simp] theorem flushInstLine_itlb (s : State) (pa : Word) : (s.flushInstLine pa).itlb = s.itlb := rfl
@[simp] theorem flushInstLine_irq (s : State) (pa : Word) : (s.flushInstLine pa).irq = s.irq := rfl
@[simp] theorem flushInstLine_periphLog (s : State) (pa : Word) : (s.flushInstLine pa).periphLog = s.periphLog := rfl
@[simp] theorem flushInstLine_tick (s : State) (pa : Word) : (s.flushInstLine pa).tick = s.tick := rfl

@[simp] theorem trapEntry_params (c0 c1 c2 c3 : Word) (a0 a1 : Option Word) (s : State) : (trapEntry c0 c1 c2 c3 a0 a1 s).params = s.params := rfl
@[simp] theorem trapEntry_regs (c0 c1 c2 c3 : Word) (a0 a1 : Option Word) (s : State) : (trapEntry c0 c1 c2 c3 a0 a1 s).regs = s.regs := rfl
@[simp] theorem trapEntry_pc (c0 c1 c2 c3 : Word) (a0 a1 : Option Word) (s : State) : (trapEntry c0 c1 c2 c3 a0 a1 s).pc = packetAddr s.eha := rfl
@[simp] theorem trapEntry_p0 (c0 c1 c2 c3 : Word) (a0 a1 : Option Word) (s : State) : (trapEntry c0 c1 c2 c3 a0 a1 s).p0 = s.p0 := rfl
@[simp] theorem trapEntry_p1 (c0 c1 c2 c3 : Word) (a0 a1 : Option Word) (s : State) : (trapEntry c0 c1 c2 c3 a0 a1 s).p1 = s.p1 := rfl
@[simp] theorem trapEntry_p2 (c0 c1 c2 c3 : Word) (a0 a1 : Option Word) (s : State) : (trapEntry c0 c1 c2 c3 a0 a1 s).p2 = s.p2 := rfl
@[simp] theorem trapEntry_ovf (c0 c1 c2 c3 : Word) (a0 a1 : Option Word) (s : State) : (trapEntry c0 c1 c2 c3 a0 a1 s).ovf = s.ovf := rfl
@[simp] theorem trapEntry_mode (c0 c1 c2 c3 : Word) (a0 a1 : Option Word) (s : State) : (trapEntry c0 c1 c2 c3 a0 a1 s).mode = .kernel := rfl
@[simp] theorem trapEntry_link (c0 c1 c2 c3 : Word) (a0 a1 : Option Word) (s : State) : (trapEntry c0 c1 c2 c3 a0 a1 s).link = false := rfl
@[simp] theorem trapEntry_pflags (c0 c1 c2 c3 : Word) (a0 a1 : Option Word) (s : State) : (trapEntry c0 c1 c2 c3 a0 a1 s).pflags = (s.setIe false).pflags := rfl
@[simp] theorem trapEntry_ptb (c0 c1 c2 c3 : Word) (a0 a1 : Option Word) (s : State) : (trapEntry c0 c1 c2 c3 a0 a1 s).ptb = s.ptb := rfl
@[simp] theorem trapEntry_eha (c0 c1 c2 c3 : Word) (a0 a1 : Option Word) (s : State) : (trapEntry c0 c1 c2 c3 a0 a1 s).eha = s.eha := rfl
@[simp] theorem trapEntry_epc (c0 c1 c2 c3 : Word) (a0 a1 : Option Word) (s : State) : (trapEntry c0 c1 c2 c3 a0 a1 s).epc = s.savedEpc := rfl
@[simp] theorem trapEntry_ec0 (c0 c1 c2 c3 : Word) (a0 a1 : Option Word) (s : State) : (trapEntry c0 c1 c2 c3 a0 a1 s).ec0 = c0 := rfl
@[simp] theorem trapEntry_ec1 (c0 c1 c2 c3 : Word) (a0 a1 : Option Word) (s : State) : (trapEntry c0 c1 c2 c3 a0 a1 s).ec1 = c1 := rfl
@[simp] theorem trapEntry_ec2 (c0 c1 c2 c3 : Word) (a0 a1 : Option Word) (s : State) : (trapEntry c0 c1 c2 c3 a0 a1 s).ec2 = c2 := rfl
@[simp] theorem trapEntry_ec3 (c0 c1 c2 c3 : Word) (a0 a1 : Option Word) (s : State) : (trapEntry c0 c1 c2 c3 a0 a1 s).ec3 = c3 := rfl
@[simp] theorem trapEntry_ea0 (c0 c1 c2 c3 : Word) (a0 a1 : Option Word) (s : State) : (trapEntry c0 c1 c2 c3 a0 a1 s).ea0 = a0.getD s.ea0 := rfl
@[simp] theorem trapEntry_ea1 (c0 c1 c2 c3 : Word) (a0 a1 : Option Word) (s : State) : (trapEntry c0 c1 c2 c3 a0 a1 s).ea1 = a1.getD s.ea1 := rfl
@[simp] theorem trapEntry_sp0 (c0 c1 c2 c3 : Word) (a0 a1 : Option Word) (s : State) : (trapEntry c0 c1 c2 c3 a0 a1 s).sp0 = s.sp0 := rfl
@[simp] theorem trapEntry_sp1 (c0 c1 c2 c3 : Word) (a0 a1 : Option Word) (s : State) : (trapEntry c0 c1 c2 c3 a0 a1 s).sp1 = s.sp1 := rfl
@[simp] theorem trapEntry_sp2 (c0 c1 c2 c3 : Word) (a0 a1 : Option Word) (s : State) : (trapEntry c0 c1 c2 c3 a0 a1 s).sp2 = s.sp2 := rfl
@[simp] theorem trapEntry_sp3 (c0 c1 c2 c3 : Word) (a0 a1 : Option Word) (s : State) : (trapEntry c0 c1 c2 c3 a0 a1 s).sp3 = s.sp3 := rfl
@[simp] theorem trapEntry_mem (c0 c1 c2 c3 : Word) (a0 a1 : Option Word) (s : State) : (trapEntry c0 c1 c2 c3 a0 a1 s).mem = s.mem := rfl
@[simp] theorem trapEntry_l2Old (c0 c1 c2 c3 : Word) (a0 a1 : Option Word) (s : State) : (trapEntry c0 c1 c2 c3 a0 a1 s).l2Old = s.l2Old := rfl
@[simp] theorem trapEntry_l1iOld (c0 c1 c2 c3 : Word) (a0 a1 : Option Word) (s : State) : (trapEntry c0 c1 c2 c3 a0 a1 s).l1iOld = s.l1iOld := rfl
@[simp] theorem trapEntry_dtlb (c0 c1 c2 c3 : Word) (a0 a1 : Option Word) (s : State) : (trapEntry c0 c1 c2 c3 a0 a1 s).dtlb = s.dtlb := rfl
@[simp] theorem trapEntry_itlb (c0 c1 c2 c3 : Word) (a0 a1 : Option Word) (s : State) : (trapEntry c0 c1 c2 c3 a0 a1 s).itlb = s.itlb := rfl
@[simp] theorem trapEntry_irq (c0 c1 c2 c3 : Word) (a0 a1 : Option Word) (s : State) : (trapEntry c0 c1 c2 c3 a0 a1 s).irq = s.irq := rfl
@[simp] theorem trapEntry_periphLog (c0 c1 c2 c3 : Word) (a0 a1 : Option Word) (s : State) : (trapEntry c0 c1 c2 c3 a0 a1 s).periphLog = s.periphLog := rfl
@[simp] theorem trapEntry_tick (c0 c1 c2 c3 : Word) (a0 a1 : Option Word) (s : State) : (trapEntry c0 c1 c2 c3 a0 a1 s).tick = s.tick := rfl

@[simp] theorem trapReturn_params (s : State) : (trapReturn s).params = s.params := rfl
@[simp] theorem trapReturn_regs (s : State) : (trapReturn s).regs = s.regs := rfl
@[simp] theorem trapReturn_pc (s : State) : (trapReturn s).pc = packetAddr s.epc := rfl
@[simp] theorem trapReturn_p0 (s : State) : (trapReturn s).p0 = s.p0 := rfl
@[simp] theorem trapReturn_p1 (s : State) : (trapReturn s).p1 = s.p1 := rfl
@[simp] theorem trapReturn_p2 (s : State) : (trapReturn s).p2 = s.p2 := rfl
@[simp] theorem trapReturn_ovf (s : State) : (trapReturn s).ovf = s.ovf := rfl
@[simp] theorem trapReturn_mode (s : State) : (trapReturn s).mode = s.epcMode := rfl
@[simp] theorem trapReturn_link (s : State) : (trapReturn s).link = false := rfl
@[simp] theorem trapReturn_pflags (s : State) : (trapReturn s).pflags = (s.setIe s.epcIf).pflags := rfl
@[simp] theorem trapReturn_ptb (s : State) : (trapReturn s).ptb = s.ptb := rfl
@[simp] theorem trapReturn_eha (s : State) : (trapReturn s).eha = s.eha := rfl
@[simp] theorem trapReturn_epc (s : State) : (trapReturn s).epc = s.epc := rfl
@[simp] theorem trapReturn_ec0 (s : State) : (trapReturn s).ec0 = s.ec0 := rfl
@[simp] theorem trapReturn_ec1 (s : State) : (trapReturn s).ec1 = s.ec1 := rfl
@[simp] theorem trapReturn_ec2 (s : State) : (trapReturn s).ec2 = s.ec2 := rfl
@[simp] theorem trapReturn_ec3 (s : State) : (trapReturn s).ec3 = s.ec3 := rfl
@[simp] theorem trapReturn_ea0 (s : State) : (trapReturn s).ea0 = s.ea0 := rfl
@[simp] theorem trapReturn_ea1 (s : State) : (trapReturn s).ea1 = s.ea1 := rfl
@[simp] theorem trapReturn_sp0 (s : State) : (trapReturn s).sp0 = s.sp0 := rfl
@[simp] theorem trapReturn_sp1 (s : State) : (trapReturn s).sp1 = s.sp1 := rfl
@[simp] theorem trapReturn_sp2 (s : State) : (trapReturn s).sp2 = s.sp2 := rfl
@[simp] theorem trapReturn_sp3 (s : State) : (trapReturn s).sp3 = s.sp3 := rfl
@[simp] theorem trapReturn_mem (s : State) : (trapReturn s).mem = s.mem := rfl
@[simp] theorem trapReturn_l2Old (s : State) : (trapReturn s).l2Old = s.l2Old := rfl
@[simp] theorem trapReturn_l1iOld (s : State) : (trapReturn s).l1iOld = s.l1iOld := rfl
@[simp] theorem trapReturn_dtlb (s : State) : (trapReturn s).dtlb = s.dtlb := rfl
@[simp] theorem trapReturn_itlb (s : State) : (trapReturn s).itlb = s.itlb := rfl
@[simp] theorem trapReturn_irq (s : State) : (trapReturn s).irq = s.irq := rfl
@[simp] theorem trapReturn_periphLog (s : State) : (trapReturn s).periphLog = s.periphLog := rfl
@[simp] theorem trapReturn_tick (s : State) : (trapReturn s).tick = s.tick := rfl

@[simp] theorem betweenSteps_params (s : State) : (s.betweenSteps).params = s.params := rfl
@[simp] theorem betweenSteps_regs (s : State) : (s.betweenSteps).regs = s.regs := rfl
@[simp] theorem betweenSteps_pc (s : State) : (s.betweenSteps).pc = s.pc := rfl
@[simp] theorem betweenSteps_p0 (s : State) : (s.betweenSteps).p0 = s.p0 := rfl
@[simp] theorem betweenSteps_p1 (s : State) : (s.betweenSteps).p1 = s.p1 := rfl
@[simp] theorem betweenSteps_p2 (s : State) : (s.betweenSteps).p2 = s.p2 := rfl
@[simp] theorem betweenSteps_ovf (s : State) : (s.betweenSteps).ovf = s.ovf := rfl
@[simp] theorem betweenSteps_mode (s : State) : (s.betweenSteps).mode = s.mode := rfl
@[simp] theorem betweenSteps_link (s : State) : (s.betweenSteps).link = s.link := rfl
@[simp] theorem betweenSteps_pflags (s : State) : (s.betweenSteps).pflags = s.pflags := rfl
@[simp] theorem betweenSteps_ptb (s : State) : (s.betweenSteps).ptb = s.ptb := rfl
@[simp] theorem betweenSteps_eha (s : State) : (s.betweenSteps).eha = s.eha := rfl
@[simp] theorem betweenSteps_epc (s : State) : (s.betweenSteps).epc = s.epc := rfl
@[simp] theorem betweenSteps_ec0 (s : State) : (s.betweenSteps).ec0 = s.ec0 := rfl
@[simp] theorem betweenSteps_ec1 (s : State) : (s.betweenSteps).ec1 = s.ec1 := rfl
@[simp] theorem betweenSteps_ec2 (s : State) : (s.betweenSteps).ec2 = s.ec2 := rfl
@[simp] theorem betweenSteps_ec3 (s : State) : (s.betweenSteps).ec3 = s.ec3 := rfl
@[simp] theorem betweenSteps_ea0 (s : State) : (s.betweenSteps).ea0 = s.ea0 := rfl
@[simp] theorem betweenSteps_ea1 (s : State) : (s.betweenSteps).ea1 = s.ea1 := rfl
@[simp] theorem betweenSteps_sp0 (s : State) : (s.betweenSteps).sp0 = s.sp0 := rfl
@[simp] theorem betweenSteps_sp1 (s : State) : (s.betweenSteps).sp1 = s.sp1 := rfl
@[simp] theorem betweenSteps_sp2 (s : State) : (s.betweenSteps).sp2 = s.sp2 := rfl
@[simp] theorem betweenSteps_sp3 (s : State) : (s.betweenSteps).sp3 = s.sp3 := rfl
@[simp] theorem betweenSteps_mem (s : State) : (s.betweenSteps).mem = s.mem := rfl
@[simp] theorem betweenSteps_l2Old (s : State) : (s.betweenSteps).l2Old = s.l2Old := rfl
@[simp] theorem betweenSteps_l1iOld (s : State) : (s.betweenSteps).l1iOld = s.l1iOld := rfl
@[simp] theorem betweenSteps_dtlb (s : State) : (s.betweenSteps).dtlb = s.dtlb.filter (Config.tlbKeeps s.tick .data) := rfl
@[simp] theorem betweenSteps_itlb (s : State) : (s.betweenSteps).itlb = s.itlb.filter (Config.tlbKeeps s.tick .inst) := rfl
@[simp] theorem betweenSteps_irq (s : State) : (s.betweenSteps).irq = Config.irqLevel s.tick := rfl
@[simp] theorem betweenSteps_periphLog (s : State) : (s.betweenSteps).periphLog = s.periphLog := rfl
@[simp] theorem betweenSteps_tick (s : State) : (s.betweenSteps).tick = s.tick + 1 := rfl

@[simp] theorem writePred_params (s : State) (n : PredReg) (b : Bool) : (s.writePred n b).params = s.params := by
  unfold State.writePred; split <;> rfl
@[simp] theorem writePred_regs (s : State) (n : PredReg) (b : Bool) : (s.writePred n b).regs = s.regs := by
  unfold State.writePred; split <;> rfl
@[simp] theorem writePred_pc (s : State) (n : PredReg) (b : Bool) : (s.writePred n b).pc = s.pc := by
  unfold State.writePred; split <;> rfl
@[simp] theorem writePred_ovf (s : State) (n : PredReg) (b : Bool) : (s.writePred n b).ovf = s.ovf := by
  unfold State.writePred; split <;> rfl
@[simp] theorem writePred_mode (s : State) (n : PredReg) (b : Bool) : (s.writePred n b).mode = s.mode := by
  unfold State.writePred; split <;> rfl
@[simp] theorem writePred_link (s : State) (n : PredReg) (b : Bool) : (s.writePred n b).link = s.link := by
  unfold State.writePred; split <;> rfl
@[simp] theorem writePred_pflags (s : State) (n : PredReg) (b : Bool) : (s.writePred n b).pflags = s.pflags := by
  unfold State.writePred; split <;> rfl
@[simp] theorem writePred_ptb (s : State) (n : PredReg) (b : Bool) : (s.writePred n b).ptb = s.ptb := by
  unfold State.writePred; split <;> rfl
@[simp] theorem writePred_eha (s : State) (n : PredReg) (b : Bool) : (s.writePred n b).eha = s.eha := by
  unfold State.writePred; split <;> rfl
@[simp] theorem writePred_epc (s : State) (n : PredReg) (b : Bool) : (s.writePred n b).epc = s.epc := by
  unfold State.writePred; split <;> rfl
@[simp] theorem writePred_ec0 (s : State) (n : PredReg) (b : Bool) : (s.writePred n b).ec0 = s.ec0 := by
  unfold State.writePred; split <;> rfl
@[simp] theorem writePred_ec1 (s : State) (n : PredReg) (b : Bool) : (s.writePred n b).ec1 = s.ec1 := by
  unfold State.writePred; split <;> rfl
@[simp] theorem writePred_ec2 (s : State) (n : PredReg) (b : Bool) : (s.writePred n b).ec2 = s.ec2 := by
  unfold State.writePred; split <;> rfl
@[simp] theorem writePred_ec3 (s : State) (n : PredReg) (b : Bool) : (s.writePred n b).ec3 = s.ec3 := by
  unfold State.writePred; split <;> rfl
@[simp] theorem writePred_ea0 (s : State) (n : PredReg) (b : Bool) : (s.writePred n b).ea0 = s.ea0 := by
  unfold State.writePred; split <;> rfl
@[simp] theorem writePred_ea1 (s : State) (n : PredReg) (b : Bool) : (s.writePred n b).ea1 = s.ea1 := by
  unfold State.writePred; split <;> rfl
@[simp] theorem writePred_sp0 (s : State) (n : PredReg) (b : Bool) : (s.writePred n b).sp0 = s.sp0 := by
  unfold State.writePred; split <;> rfl
@[simp] theorem writePred_sp1 (s : State) (n : PredReg) (b : Bool) : (s.writePred n b).sp1 = s.sp1 := by
  unfold State.writePred; split <;> rfl
@[simp] theorem writePred_sp2 (s : State) (n : PredReg) (b : Bool) : (s.writePred n b).sp2 = s.sp2 := by
  unfold State.writePred; split <;> rfl
@[simp] theorem writePred_sp3 (s : State) (n : PredReg) (b : Bool) : (s.writePred n b).sp3 = s.sp3 := by
  unfold State.writePred; split <;> rfl
@[simp] theorem writePred_mem (s : State) (n : PredReg) (b : Bool) : (s.writePred n b).mem = s.mem := by
  unfold State.writePred; split <;> rfl
@[simp] theorem writePred_l2Old (s : State) (n : PredReg) (b : Bool) : (s.writePred n b).l2Old = s.l2Old := by
  unfold State.writePred; split <;> rfl
@[simp] theorem writePred_l1iOld (s : State) (n : PredReg) (b : Bool) : (s.writePred n b).l1iOld = s.l1iOld := by
  unfold State.writePred; split <;> rfl
@[simp] theorem writePred_dtlb (s : State) (n : PredReg) (b : Bool) : (s.writePred n b).dtlb = s.dtlb := by
  unfold State.writePred; split <;> rfl
@[simp] theorem writePred_itlb (s : State) (n : PredReg) (b : Bool) : (s.writePred n b).itlb = s.itlb := by
  unfold State.writePred; split <;> rfl
@[simp] theorem writePred_irq (s : State) (n : PredReg) (b : Bool) : (s.writePred n b).irq = s.irq := by
  unfold State.writePred; split <;> rfl
@[simp] theorem writePred_periphLog (s : State) (n : PredReg) (b : Bool) : (s.writePred n b).periphLog = s.periphLog := by
  unfold State.writePred; split <;> rfl
@[simp] theorem writePred_tick (s : State) (n : PredReg) (b : Bool) : (s.writePred n b).tick = s.tick := by
  unfold State.writePred; split <;> rfl

@[simp] theorem writeCpr_params (s : State) (c : Cpr) (v : Word) : (s.writeCpr c v).params = s.params := by cases c <;> rfl
@[simp] theorem writeCpr_regs (s : State) (c : Cpr) (v : Word) : (s.writeCpr c v).regs = s.regs := by cases c <;> rfl
@[simp] theorem writeCpr_pc (s : State) (c : Cpr) (v : Word) : (s.writeCpr c v).pc = s.pc := by cases c <;> rfl
@[simp] theorem writeCpr_p0 (s : State) (c : Cpr) (v : Word) : (s.writeCpr c v).p0 = s.p0 := by cases c <;> rfl
@[simp] theorem writeCpr_p1 (s : State) (c : Cpr) (v : Word) : (s.writeCpr c v).p1 = s.p1 := by cases c <;> rfl
@[simp] theorem writeCpr_p2 (s : State) (c : Cpr) (v : Word) : (s.writeCpr c v).p2 = s.p2 := by cases c <;> rfl
@[simp] theorem writeCpr_ovf (s : State) (c : Cpr) (v : Word) : (s.writeCpr c v).ovf = s.ovf := by cases c <;> rfl
@[simp] theorem writeCpr_mode (s : State) (c : Cpr) (v : Word) : (s.writeCpr c v).mode = s.mode := by cases c <;> rfl
@[simp] theorem writeCpr_link (s : State) (c : Cpr) (v : Word) : (s.writeCpr c v).link = s.link := by cases c <;> rfl
@[simp] theorem writeCpr_mem (s : State) (c : Cpr) (v : Word) : (s.writeCpr c v).mem = s.mem := by cases c <;> rfl
@[simp] theorem writeCpr_l2Old (s : State) (c : Cpr) (v : Word) : (s.writeCpr c v).l2Old = s.l2Old := by cases c <;> rfl
@[simp] theorem writeCpr_l1iOld (s : State) (c : Cpr) (v : Word) : (s.writeCpr c v).l1iOld = s.l1iOld := by cases c <;> rfl
@[simp] theorem writeCpr_irq (s : State) (c : Cpr) (v : Word) : (s.writeCpr c v).irq = s.irq := by cases c <;> rfl
@[simp] theorem writeCpr_periphLog (s : State) (c : Cpr) (v : Word) : (s.writeCpr c v).periphLog = s.periphLog := by cases c <;> rfl
@[simp] theorem writeCpr_tick (s : State) (c : Cpr) (v : Word) : (s.writeCpr c v).tick = s.tick := by cases c <;> rfl

@[simp] theorem flushTlbPage_params (s : State) (w : TlbId) (p : BitVec 20) : (s.flushTlbPage w p).params = s.params := by cases w <;> rfl
@[simp] theorem flushTlbPage_regs (s : State) (w : TlbId) (p : BitVec 20) : (s.flushTlbPage w p).regs = s.regs := by cases w <;> rfl
@[simp] theorem flushTlbPage_pc (s : State) (w : TlbId) (p : BitVec 20) : (s.flushTlbPage w p).pc = s.pc := by cases w <;> rfl
@[simp] theorem flushTlbPage_p0 (s : State) (w : TlbId) (p : BitVec 20) : (s.flushTlbPage w p).p0 = s.p0 := by cases w <;> rfl
@[simp] theorem flushTlbPage_p1 (s : State) (w : TlbId) (p : BitVec 20) : (s.flushTlbPage w p).p1 = s.p1 := by cases w <;> rfl
@[simp] theorem flushTlbPage_p2 (s : State) (w : TlbId) (p : BitVec 20) : (s.flushTlbPage w p).p2 = s.p2 := by cases w <;> rfl
@[simp] theorem flushTlbPage_ovf (s : State) (w : TlbId) (p : BitVec 20) : (s.flushTlbPage w p).ovf = s.ovf := by cases w <;> rfl
@[simp] theorem flushTlbPage_mode (s : State) (w : TlbId) (p : BitVec 20) : (s.flushTlbPage w p).mode = s.mode := by cases w <;> rfl
@[simp] theorem flushTlbPage_link (s : State) (w : TlbId) (p : BitVec 20) : (s.flushTlbPage w p).link = s.link := by cases w <;> rfl
@[simp] theorem flushTlbPage_pflags (s : State) (w : TlbId) (p : BitVec 20) : (s.flushTlbPage w p).pflags = s.pflags := by cases w <;> rfl
@[simp] theorem flushTlbPage_ptb (s : State) (w : TlbId) (p : BitVec 20) : (s.flushTlbPage w p).ptb = s.ptb := by cases w <;> rfl
@[simp] theorem flushTlbPage_eha (s : State) (w : TlbId) (p : BitVec 20) : (s.flushTlbPage w p).eha = s.eha := by cases w <;> rfl
@[simp] theorem flushTlbPage_epc (s : State) (w : TlbId) (p : BitVec 20) : (s.flushTlbPage w p).epc = s.epc := by cases w <;> rfl
@[simp] theorem flushTlbPage_ec0 (s : State) (w : TlbId) (p : BitVec 20) : (s.flushTlbPage w p).ec0 = s.ec0 := by cases w <;> rfl
@[simp] theorem flushTlbPage_ec1 (s : State) (w : TlbId) (p : BitVec 20) : (s.flushTlbPage w p).ec1 = s.ec1 := by cases w <;> rfl
@[simp] theorem flushTlbPage_ec2 (s : State) (w : TlbId) (p : BitVec 20) : (s.flushTlbPage w p).ec2 = s.ec2 := by cases w <;> rfl
@[simp] theorem flushTlbPage_ec3 (s : State) (w : TlbId) (p : BitVec 20) : (s.flushTlbPage w p).ec3 = s.ec3 := by cases w <;> rfl
@[simp] theorem flushTlbPage_ea0 (s : State) (w : TlbId) (p : BitVec 20) : (s.flushTlbPage w p).ea0 = s.ea0 := by cases w <;> rfl
@[simp] theorem flushTlbPage_ea1 (s : State) (w : TlbId) (p : BitVec 20) : (s.flushTlbPage w p).ea1 = s.ea1 := by cases w <;> rfl
@[simp] theorem flushTlbPage_sp0 (s : State) (w : TlbId) (p : BitVec 20) : (s.flushTlbPage w p).sp0 = s.sp0 := by cases w <;> rfl
@[simp] theorem flushTlbPage_sp1 (s : State) (w : TlbId) (p : BitVec 20) : (s.flushTlbPage w p).sp1 = s.sp1 := by cases w <;> rfl
@[simp] theorem flushTlbPage_sp2 (s : State) (w : TlbId) (p : BitVec 20) : (s.flushTlbPage w p).sp2 = s.sp2 := by cases w <;> rfl
@[simp] theorem flushTlbPage_sp3 (s : State) (w : TlbId) (p : BitVec 20) : (s.flushTlbPage w p).sp3 = s.sp3 := by cases w <;> rfl
@[simp] theorem flushTlbPage_mem (s : State) (w : TlbId) (p : BitVec 20) : (s.flushTlbPage w p).mem = s.mem := by cases w <;> rfl
@[simp] theorem flushTlbPage_l2Old (s : State) (w : TlbId) (p : BitVec 20) : (s.flushTlbPage w p).l2Old = s.l2Old := by cases w <;> rfl
@[simp] theorem flushTlbPage_l1iOld (s : State) (w : TlbId) (p : BitVec 20) : (s.flushTlbPage w p).l1iOld = s.l1iOld := by cases w <;> rfl
@[simp] theorem flushTlbPage_irq (s : State) (w : TlbId) (p : BitVec 20) : (s.flushTlbPage w p).irq = s.irq := by cases w <;> rfl
@[simp] theorem flushTlbPage_periphLog (s : State) (w : TlbId) (p : BitVec 20) : (s.flushTlbPage w p).periphLog = s.periphLog := by cases w <;> rfl
@[simp] theorem flushTlbPage_tick (s : State) (w : TlbId) (p : BitVec 20) : (s.flushTlbPage w p).tick = s.tick := by cases w <;> rfl

@[simp] theorem fillTlb_params (s : State) (w : TlbId) (e : TlbEntry) : (s.fillTlb w e).params = s.params := by cases w <;> rfl
@[simp] theorem fillTlb_regs (s : State) (w : TlbId) (e : TlbEntry) : (s.fillTlb w e).regs = s.regs := by cases w <;> rfl
@[simp] theorem fillTlb_pc (s : State) (w : TlbId) (e : TlbEntry) : (s.fillTlb w e).pc = s.pc := by cases w <;> rfl
@[simp] theorem fillTlb_p0 (s : State) (w : TlbId) (e : TlbEntry) : (s.fillTlb w e).p0 = s.p0 := by cases w <;> rfl
@[simp] theorem fillTlb_p1 (s : State) (w : TlbId) (e : TlbEntry) : (s.fillTlb w e).p1 = s.p1 := by cases w <;> rfl
@[simp] theorem fillTlb_p2 (s : State) (w : TlbId) (e : TlbEntry) : (s.fillTlb w e).p2 = s.p2 := by cases w <;> rfl
@[simp] theorem fillTlb_ovf (s : State) (w : TlbId) (e : TlbEntry) : (s.fillTlb w e).ovf = s.ovf := by cases w <;> rfl
@[simp] theorem fillTlb_mode (s : State) (w : TlbId) (e : TlbEntry) : (s.fillTlb w e).mode = s.mode := by cases w <;> rfl
@[simp] theorem fillTlb_link (s : State) (w : TlbId) (e : TlbEntry) : (s.fillTlb w e).link = s.link := by cases w <;> rfl
@[simp] theorem fillTlb_pflags (s : State) (w : TlbId) (e : TlbEntry) : (s.fillTlb w e).pflags = s.pflags := by cases w <;> rfl
@[simp] theorem fillTlb_ptb (s : State) (w : TlbId) (e : TlbEntry) : (s.fillTlb w e).ptb = s.ptb := by cases w <;> rfl
@[simp] theorem fillTlb_eha (s : State) (w : TlbId) (e : TlbEntry) : (s.fillTlb w e).eha = s.eha := by cases w <;> rfl
@[simp] theorem fillTlb_epc (s : State) (w : TlbId) (e : TlbEntry) : (s.fillTlb w e).epc = s.epc := by cases w <;> rfl
@[simp] theorem fillTlb_ec0 (s : State) (w : TlbId) (e : TlbEntry) : (s.fillTlb w e).ec0 = s.ec0 := by cases w <;> rfl
@[simp] theorem fillTlb_ec1 (s : State) (w : TlbId) (e : TlbEntry) : (s.fillTlb w e).ec1 = s.ec1 := by cases w <;> rfl
@[simp] theorem fillTlb_ec2 (s : State) (w : TlbId) (e : TlbEntry) : (s.fillTlb w e).ec2 = s.ec2 := by cases w <;> rfl
@[simp] theorem fillTlb_ec3 (s : State) (w : TlbId) (e : TlbEntry) : (s.fillTlb w e).ec3 = s.ec3 := by cases w <;> rfl
@[simp] theorem fillTlb_ea0 (s : State) (w : TlbId) (e : TlbEntry) : (s.fillTlb w e).ea0 = s.ea0 := by cases w <;> rfl
@[simp] theorem fillTlb_ea1 (s : State) (w : TlbId) (e : TlbEntry) : (s.fillTlb w e).ea1 = s.ea1 := by cases w <;> rfl
@[simp] theorem fillTlb_sp0 (s : State) (w : TlbId) (e : TlbEntry) : (s.fillTlb w e).sp0 = s.sp0 := by cases w <;> rfl
@[simp] theorem fillTlb_sp1 (s : State) (w : TlbId) (e : TlbEntry) : (s.fillTlb w e).sp1 = s.sp1 := by cases w <;> rfl
@[simp] theorem fillTlb_sp2 (s : State) (w : TlbId) (e : TlbEntry) : (s.fillTlb w e).sp2 = s.sp2 := by cases w <;> rfl
@[simp] theorem fillTlb_sp3 (s : State) (w : TlbId) (e : TlbEntry) : (s.fillTlb w e).sp3 = s.sp3 := by cases w <;> rfl
@[simp] theorem fillTlb_mem (s : State) (w : TlbId) (e : TlbEntry) : (s.fillTlb w e).mem = s.mem := by cases w <;> rfl
@[simp] theorem fillTlb_l2Old (s : State) (w : TlbId) (e : TlbEntry) : (s.fillTlb w e).l2Old = s.l2Old := by cases w <;> rfl
@[simp] theorem fillTlb_l1iOld (s : State) (w : TlbId) (e : TlbEntry) : (s.fillTlb w e).l1iOld = s.l1iOld := by cases w <;> rfl
@[simp] theorem fillTlb_irq (s : State) (w : TlbId) (e : TlbEntry) : (s.fillTlb w e).irq = s.irq := by cases w <;> rfl
@[simp] theorem fillTlb_periphLog (s : State) (w : TlbId) (e : TlbEntry) : (s.fillTlb w e).periphLog = s.periphLog := by cases w <;> rfl
@[simp] theorem fillTlb_tick (s : State) (w : TlbId) (e : TlbEntry) : (s.fillTlb w e).tick = s.tick := by cases w <;> rfl

@[simp] theorem fillOption_params (s : State) (w : TlbId) (e : Option TlbEntry) : (s.fillOption w e).params = s.params := rfl
@[simp] theorem fillOption_regs (s : State) (w : TlbId) (e : Option TlbEntry) : (s.fillOption w e).regs = s.regs := rfl
@[simp] theorem fillOption_pc (s : State) (w : TlbId) (e : Option TlbEntry) : (s.fillOption w e).pc = s.pc := rfl
@[simp] theorem fillOption_p0 (s : State) (w : TlbId) (e : Option TlbEntry) : (s.fillOption w e).p0 = s.p0 := rfl
@[simp] theorem fillOption_p1 (s : State) (w : TlbId) (e : Option TlbEntry) : (s.fillOption w e).p1 = s.p1 := rfl
@[simp] theorem fillOption_p2 (s : State) (w : TlbId) (e : Option TlbEntry) : (s.fillOption w e).p2 = s.p2 := rfl
@[simp] theorem fillOption_ovf (s : State) (w : TlbId) (e : Option TlbEntry) : (s.fillOption w e).ovf = s.ovf := rfl
@[simp] theorem fillOption_mode (s : State) (w : TlbId) (e : Option TlbEntry) : (s.fillOption w e).mode = s.mode := rfl
@[simp] theorem fillOption_link (s : State) (w : TlbId) (e : Option TlbEntry) : (s.fillOption w e).link = s.link := rfl
@[simp] theorem fillOption_pflags (s : State) (w : TlbId) (e : Option TlbEntry) : (s.fillOption w e).pflags = s.pflags := rfl
@[simp] theorem fillOption_ptb (s : State) (w : TlbId) (e : Option TlbEntry) : (s.fillOption w e).ptb = s.ptb := rfl
@[simp] theorem fillOption_eha (s : State) (w : TlbId) (e : Option TlbEntry) : (s.fillOption w e).eha = s.eha := rfl
@[simp] theorem fillOption_epc (s : State) (w : TlbId) (e : Option TlbEntry) : (s.fillOption w e).epc = s.epc := rfl
@[simp] theorem fillOption_ec0 (s : State) (w : TlbId) (e : Option TlbEntry) : (s.fillOption w e).ec0 = s.ec0 := rfl
@[simp] theorem fillOption_ec1 (s : State) (w : TlbId) (e : Option TlbEntry) : (s.fillOption w e).ec1 = s.ec1 := rfl
@[simp] theorem fillOption_ec2 (s : State) (w : TlbId) (e : Option TlbEntry) : (s.fillOption w e).ec2 = s.ec2 := rfl
@[simp] theorem fillOption_ec3 (s : State) (w : TlbId) (e : Option TlbEntry) : (s.fillOption w e).ec3 = s.ec3 := rfl
@[simp] theorem fillOption_ea0 (s : State) (w : TlbId) (e : Option TlbEntry) : (s.fillOption w e).ea0 = s.ea0 := rfl
@[simp] theorem fillOption_ea1 (s : State) (w : TlbId) (e : Option TlbEntry) : (s.fillOption w e).ea1 = s.ea1 := rfl
@[simp] theorem fillOption_sp0 (s : State) (w : TlbId) (e : Option TlbEntry) : (s.fillOption w e).sp0 = s.sp0 := rfl
@[simp] theorem fillOption_sp1 (s : State) (w : TlbId) (e : Option TlbEntry) : (s.fillOption w e).sp1 = s.sp1 := rfl
@[simp] theorem fillOption_sp2 (s : State) (w : TlbId) (e : Option TlbEntry) : (s.fillOption w e).sp2 = s.sp2 := rfl
@[simp] theorem fillOption_sp3 (s : State) (w : TlbId) (e : Option TlbEntry) : (s.fillOption w e).sp3 = s.sp3 := rfl
@[simp] theorem fillOption_mem (s : State) (w : TlbId) (e : Option TlbEntry) : (s.fillOption w e).mem = s.mem := rfl
@[simp] theorem fillOption_l2Old (s : State) (w : TlbId) (e : Option TlbEntry) : (s.fillOption w e).l2Old = s.l2Old := rfl
@[simp] theorem fillOption_l1iOld (s : State) (w : TlbId) (e : Option TlbEntry) : (s.fillOption w e).l1iOld = s.l1iOld := rfl
@[simp] theorem fillOption_irq (s : State) (w : TlbId) (e : Option TlbEntry) : (s.fillOption w e).irq = s.irq := rfl
@[simp] theorem fillOption_periphLog (s : State) (w : TlbId) (e : Option TlbEntry) : (s.fillOption w e).periphLog = s.periphLog := rfl
@[simp] theorem fillOption_tick (s : State) (w : TlbId) (e : Option TlbEntry) : (s.fillOption w e).tick = s.tick := rfl

@[simp] theorem afterFetch_params (s : State) : (afterFetch s).params = s.params := rfl
@[simp] theorem afterFetch_regs (s : State) : (afterFetch s).regs = s.regs := rfl
@[simp] theorem afterFetch_pc (s : State) : (afterFetch s).pc = s.pc := rfl
@[simp] theorem afterFetch_p0 (s : State) : (afterFetch s).p0 = s.p0 := rfl
@[simp] theorem afterFetch_p1 (s : State) : (afterFetch s).p1 = s.p1 := rfl
@[simp] theorem afterFetch_p2 (s : State) : (afterFetch s).p2 = s.p2 := rfl
@[simp] theorem afterFetch_ovf (s : State) : (afterFetch s).ovf = s.ovf := rfl
@[simp] theorem afterFetch_mode (s : State) : (afterFetch s).mode = s.mode := rfl
@[simp] theorem afterFetch_link (s : State) : (afterFetch s).link = s.link := rfl
@[simp] theorem afterFetch_pflags (s : State) : (afterFetch s).pflags = s.pflags := rfl
@[simp] theorem afterFetch_ptb (s : State) : (afterFetch s).ptb = s.ptb := rfl
@[simp] theorem afterFetch_eha (s : State) : (afterFetch s).eha = s.eha := rfl
@[simp] theorem afterFetch_epc (s : State) : (afterFetch s).epc = s.epc := rfl
@[simp] theorem afterFetch_ec0 (s : State) : (afterFetch s).ec0 = s.ec0 := rfl
@[simp] theorem afterFetch_ec1 (s : State) : (afterFetch s).ec1 = s.ec1 := rfl
@[simp] theorem afterFetch_ec2 (s : State) : (afterFetch s).ec2 = s.ec2 := rfl
@[simp] theorem afterFetch_ec3 (s : State) : (afterFetch s).ec3 = s.ec3 := rfl
@[simp] theorem afterFetch_ea0 (s : State) : (afterFetch s).ea0 = s.ea0 := rfl
@[simp] theorem afterFetch_ea1 (s : State) : (afterFetch s).ea1 = s.ea1 := rfl
@[simp] theorem afterFetch_sp0 (s : State) : (afterFetch s).sp0 = s.sp0 := rfl
@[simp] theorem afterFetch_sp1 (s : State) : (afterFetch s).sp1 = s.sp1 := rfl
@[simp] theorem afterFetch_sp2 (s : State) : (afterFetch s).sp2 = s.sp2 := rfl
@[simp] theorem afterFetch_sp3 (s : State) : (afterFetch s).sp3 = s.sp3 := rfl
@[simp] theorem afterFetch_mem (s : State) : (afterFetch s).mem = s.mem := rfl
@[simp] theorem afterFetch_l2Old (s : State) : (afterFetch s).l2Old = s.l2Old := rfl
@[simp] theorem afterFetch_l1iOld (s : State) : (afterFetch s).l1iOld = s.l1iOld := rfl
@[simp] theorem afterFetch_dtlb (s : State) : (afterFetch s).dtlb = s.dtlb := by
  unfold afterFetch State.fillOption
  cases (fetchTranslation s).fill <;> rfl
@[simp] theorem afterFetch_irq (s : State) : (afterFetch s).irq = s.irq := rfl
@[simp] theorem afterFetch_periphLog (s : State) : (afterFetch s).periphLog = s.periphLog := rfl
@[simp] theorem afterFetch_tick (s : State) : (afterFetch s).tick = s.tick := rfl

@[simp] theorem placeWord_params (s : State) (pa w : Word) : (s.placeWord pa w).params = s.params := rfl
@[simp] theorem placeWord_regs (s : State) (pa w : Word) : (s.placeWord pa w).regs = s.regs := rfl
@[simp] theorem placeWord_pc (s : State) (pa w : Word) : (s.placeWord pa w).pc = s.pc := rfl
@[simp] theorem placeWord_p0 (s : State) (pa w : Word) : (s.placeWord pa w).p0 = s.p0 := rfl
@[simp] theorem placeWord_p1 (s : State) (pa w : Word) : (s.placeWord pa w).p1 = s.p1 := rfl
@[simp] theorem placeWord_p2 (s : State) (pa w : Word) : (s.placeWord pa w).p2 = s.p2 := rfl
@[simp] theorem placeWord_ovf (s : State) (pa w : Word) : (s.placeWord pa w).ovf = s.ovf := rfl
@[simp] theorem placeWord_mode (s : State) (pa w : Word) : (s.placeWord pa w).mode = s.mode := rfl
@[simp] theorem placeWord_link (s : State) (pa w : Word) : (s.placeWord pa w).link = s.link := rfl
@[simp] theorem placeWord_pflags (s : State) (pa w : Word) : (s.placeWord pa w).pflags = s.pflags := rfl
@[simp] theorem placeWord_ptb (s : State) (pa w : Word) : (s.placeWord pa w).ptb = s.ptb := rfl
@[simp] theorem placeWord_eha (s : State) (pa w : Word) : (s.placeWord pa w).eha = s.eha := rfl
@[simp] theorem placeWord_epc (s : State) (pa w : Word) : (s.placeWord pa w).epc = s.epc := rfl
@[simp] theorem placeWord_ec0 (s : State) (pa w : Word) : (s.placeWord pa w).ec0 = s.ec0 := rfl
@[simp] theorem placeWord_ec1 (s : State) (pa w : Word) : (s.placeWord pa w).ec1 = s.ec1 := rfl
@[simp] theorem placeWord_ec2 (s : State) (pa w : Word) : (s.placeWord pa w).ec2 = s.ec2 := rfl
@[simp] theorem placeWord_ec3 (s : State) (pa w : Word) : (s.placeWord pa w).ec3 = s.ec3 := rfl
@[simp] theorem placeWord_ea0 (s : State) (pa w : Word) : (s.placeWord pa w).ea0 = s.ea0 := rfl
@[simp] theorem placeWord_ea1 (s : State) (pa w : Word) : (s.placeWord pa w).ea1 = s.ea1 := rfl
@[simp] theorem placeWord_sp0 (s : State) (pa w : Word) : (s.placeWord pa w).sp0 = s.sp0 := rfl
@[simp] theorem placeWord_sp1 (s : State) (pa w : Word) : (s.placeWord pa w).sp1 = s.sp1 := rfl
@[simp] theorem placeWord_sp2 (s : State) (pa w : Word) : (s.placeWord pa w).sp2 = s.sp2 := rfl
@[simp] theorem placeWord_sp3 (s : State) (pa w : Word) : (s.placeWord pa w).sp3 = s.sp3 := rfl
@[simp] theorem placeWord_mem (s : State) (pa w : Word) : (s.placeWord pa w).mem = s.mem.writeSized pa.toNat .word w := rfl
@[simp] theorem placeWord_dtlb (s : State) (pa w : Word) : (s.placeWord pa w).dtlb = s.dtlb := rfl
@[simp] theorem placeWord_itlb (s : State) (pa w : Word) : (s.placeWord pa w).itlb = s.itlb := rfl
@[simp] theorem placeWord_irq (s : State) (pa w : Word) : (s.placeWord pa w).irq = s.irq := rfl
@[simp] theorem placeWord_periphLog (s : State) (pa w : Word) : (s.placeWord pa w).periphLog = s.periphLog := rfl
@[simp] theorem placeWord_tick (s : State) (pa w : Word) : (s.placeWord pa w).tick = s.tick := rfl

/-- A store commits to RAM or is recorded. -/
theorem commitStore_cases (s : State) (pa : Word) (sz : Size) (v : Word) :
    (isRam pa = true ∧ s.commitStore pa sz v = s.storeRam pa sz v) ∨
      (isRam pa = false ∧ s.commitStore pa sz v = s.logEvent (.store pa sz (sz.truncate v))) := by
  unfold State.commitStore
  cases isRam pa <;> simp

@[simp] theorem commitStore_params (s : State) (pa : Word) (sz : Size) (v : Word) : (s.commitStore pa sz v).params = s.params := by
  unfold State.commitStore; split <;> rfl
@[simp] theorem commitStore_regs (s : State) (pa : Word) (sz : Size) (v : Word) : (s.commitStore pa sz v).regs = s.regs := by
  unfold State.commitStore; split <;> rfl
@[simp] theorem commitStore_pc (s : State) (pa : Word) (sz : Size) (v : Word) : (s.commitStore pa sz v).pc = s.pc := by
  unfold State.commitStore; split <;> rfl
@[simp] theorem commitStore_p0 (s : State) (pa : Word) (sz : Size) (v : Word) : (s.commitStore pa sz v).p0 = s.p0 := by
  unfold State.commitStore; split <;> rfl
@[simp] theorem commitStore_p1 (s : State) (pa : Word) (sz : Size) (v : Word) : (s.commitStore pa sz v).p1 = s.p1 := by
  unfold State.commitStore; split <;> rfl
@[simp] theorem commitStore_p2 (s : State) (pa : Word) (sz : Size) (v : Word) : (s.commitStore pa sz v).p2 = s.p2 := by
  unfold State.commitStore; split <;> rfl
@[simp] theorem commitStore_ovf (s : State) (pa : Word) (sz : Size) (v : Word) : (s.commitStore pa sz v).ovf = s.ovf := by
  unfold State.commitStore; split <;> rfl
@[simp] theorem commitStore_mode (s : State) (pa : Word) (sz : Size) (v : Word) : (s.commitStore pa sz v).mode = s.mode := by
  unfold State.commitStore; split <;> rfl
@[simp] theorem commitStore_link (s : State) (pa : Word) (sz : Size) (v : Word) : (s.commitStore pa sz v).link = s.link := by
  unfold State.commitStore; split <;> rfl
@[simp] theorem commitStore_pflags (s : State) (pa : Word) (sz : Size) (v : Word) : (s.commitStore pa sz v).pflags = s.pflags := by
  unfold State.commitStore; split <;> rfl
@[simp] theorem commitStore_ptb (s : State) (pa : Word) (sz : Size) (v : Word) : (s.commitStore pa sz v).ptb = s.ptb := by
  unfold State.commitStore; split <;> rfl
@[simp] theorem commitStore_eha (s : State) (pa : Word) (sz : Size) (v : Word) : (s.commitStore pa sz v).eha = s.eha := by
  unfold State.commitStore; split <;> rfl
@[simp] theorem commitStore_epc (s : State) (pa : Word) (sz : Size) (v : Word) : (s.commitStore pa sz v).epc = s.epc := by
  unfold State.commitStore; split <;> rfl
@[simp] theorem commitStore_ec0 (s : State) (pa : Word) (sz : Size) (v : Word) : (s.commitStore pa sz v).ec0 = s.ec0 := by
  unfold State.commitStore; split <;> rfl
@[simp] theorem commitStore_ec1 (s : State) (pa : Word) (sz : Size) (v : Word) : (s.commitStore pa sz v).ec1 = s.ec1 := by
  unfold State.commitStore; split <;> rfl
@[simp] theorem commitStore_ec2 (s : State) (pa : Word) (sz : Size) (v : Word) : (s.commitStore pa sz v).ec2 = s.ec2 := by
  unfold State.commitStore; split <;> rfl
@[simp] theorem commitStore_ec3 (s : State) (pa : Word) (sz : Size) (v : Word) : (s.commitStore pa sz v).ec3 = s.ec3 := by
  unfold State.commitStore; split <;> rfl
@[simp] theorem commitStore_ea0 (s : State) (pa : Word) (sz : Size) (v : Word) : (s.commitStore pa sz v).ea0 = s.ea0 := by
  unfold State.commitStore; split <;> rfl
@[simp] theorem commitStore_ea1 (s : State) (pa : Word) (sz : Size) (v : Word) : (s.commitStore pa sz v).ea1 = s.ea1 := by
  unfold State.commitStore; split <;> rfl
@[simp] theorem commitStore_sp0 (s : State) (pa : Word) (sz : Size) (v : Word) : (s.commitStore pa sz v).sp0 = s.sp0 := by
  unfold State.commitStore; split <;> rfl
@[simp] theorem commitStore_sp1 (s : State) (pa : Word) (sz : Size) (v : Word) : (s.commitStore pa sz v).sp1 = s.sp1 := by
  unfold State.commitStore; split <;> rfl
@[simp] theorem commitStore_sp2 (s : State) (pa : Word) (sz : Size) (v : Word) : (s.commitStore pa sz v).sp2 = s.sp2 := by
  unfold State.commitStore; split <;> rfl
@[simp] theorem commitStore_sp3 (s : State) (pa : Word) (sz : Size) (v : Word) : (s.commitStore pa sz v).sp3 = s.sp3 := by
  unfold State.commitStore; split <;> rfl
@[simp] theorem commitStore_dtlb (s : State) (pa : Word) (sz : Size) (v : Word) : (s.commitStore pa sz v).dtlb = s.dtlb := by
  unfold State.commitStore; split <;> rfl
@[simp] theorem commitStore_itlb (s : State) (pa : Word) (sz : Size) (v : Word) : (s.commitStore pa sz v).itlb = s.itlb := by
  unfold State.commitStore; split <;> rfl
@[simp] theorem commitStore_irq (s : State) (pa : Word) (sz : Size) (v : Word) : (s.commitStore pa sz v).irq = s.irq := by
  unfold State.commitStore; split <;> rfl
@[simp] theorem commitStore_tick (s : State) (pa : Word) (sz : Size) (v : Word) : (s.commitStore pa sz v).tick = s.tick := by
  unfold State.commitStore; split <;> rfl

@[simp] theorem applyFills_params (fs : List Fill) (s : State) : (applyFills fs s).params = s.params := rfl
@[simp] theorem applyFills_regs (fs : List Fill) (s : State) : (applyFills fs s).regs = s.regs := rfl
@[simp] theorem applyFills_pc (fs : List Fill) (s : State) : (applyFills fs s).pc = s.pc := rfl
@[simp] theorem applyFills_p0 (fs : List Fill) (s : State) : (applyFills fs s).p0 = s.p0 := rfl
@[simp] theorem applyFills_p1 (fs : List Fill) (s : State) : (applyFills fs s).p1 = s.p1 := rfl
@[simp] theorem applyFills_p2 (fs : List Fill) (s : State) : (applyFills fs s).p2 = s.p2 := rfl
@[simp] theorem applyFills_ovf (fs : List Fill) (s : State) : (applyFills fs s).ovf = s.ovf := rfl
@[simp] theorem applyFills_mode (fs : List Fill) (s : State) : (applyFills fs s).mode = s.mode := rfl
@[simp] theorem applyFills_link (fs : List Fill) (s : State) : (applyFills fs s).link = s.link := rfl
@[simp] theorem applyFills_pflags (fs : List Fill) (s : State) : (applyFills fs s).pflags = s.pflags := rfl
@[simp] theorem applyFills_ptb (fs : List Fill) (s : State) : (applyFills fs s).ptb = s.ptb := rfl
@[simp] theorem applyFills_eha (fs : List Fill) (s : State) : (applyFills fs s).eha = s.eha := rfl
@[simp] theorem applyFills_epc (fs : List Fill) (s : State) : (applyFills fs s).epc = s.epc := rfl
@[simp] theorem applyFills_ec0 (fs : List Fill) (s : State) : (applyFills fs s).ec0 = s.ec0 := rfl
@[simp] theorem applyFills_ec1 (fs : List Fill) (s : State) : (applyFills fs s).ec1 = s.ec1 := rfl
@[simp] theorem applyFills_ec2 (fs : List Fill) (s : State) : (applyFills fs s).ec2 = s.ec2 := rfl
@[simp] theorem applyFills_ec3 (fs : List Fill) (s : State) : (applyFills fs s).ec3 = s.ec3 := rfl
@[simp] theorem applyFills_ea0 (fs : List Fill) (s : State) : (applyFills fs s).ea0 = s.ea0 := rfl
@[simp] theorem applyFills_ea1 (fs : List Fill) (s : State) : (applyFills fs s).ea1 = s.ea1 := rfl
@[simp] theorem applyFills_sp0 (fs : List Fill) (s : State) : (applyFills fs s).sp0 = s.sp0 := rfl
@[simp] theorem applyFills_sp1 (fs : List Fill) (s : State) : (applyFills fs s).sp1 = s.sp1 := rfl
@[simp] theorem applyFills_sp2 (fs : List Fill) (s : State) : (applyFills fs s).sp2 = s.sp2 := rfl
@[simp] theorem applyFills_sp3 (fs : List Fill) (s : State) : (applyFills fs s).sp3 = s.sp3 := rfl
@[simp] theorem applyFills_mem (fs : List Fill) (s : State) : (applyFills fs s).mem = s.mem := rfl
@[simp] theorem applyFills_l2Old (fs : List Fill) (s : State) : (applyFills fs s).l2Old = s.l2Old := rfl
@[simp] theorem applyFills_l1iOld (fs : List Fill) (s : State) : (applyFills fs s).l1iOld = s.l1iOld := rfl
@[simp] theorem applyFills_irq (fs : List Fill) (s : State) : (applyFills fs s).irq = s.irq := rfl
@[simp] theorem applyFills_periphLog (fs : List Fill) (s : State) : (applyFills fs s).periphLog = s.periphLog := rfl
@[simp] theorem applyFills_tick (fs : List Fill) (s : State) : (applyFills fs s).tick = s.tick := rfl

end Sys2Proof.Machine
end

