-- ==== Sys2Proof/Laws/Ops.lean ====
section
/-! SUPPORT. What each shared operation does, said once: registers, predicates, coprocessor registers, stores, trap entry
and return, translation and the packet fetch. -/

namespace Sys2Proof.Machine

/-! Registers and predicates (10_state.md R10, R15). -/

@[simp] theorem readReg_writeReg_self (s : State) (r : Reg) (v : Word) : (s.writeReg r v).readReg r = v := by
  simp [State.readReg]

@[simp] theorem readReg_writeReg_ne (s : State) {r q : Reg} (v : Word) (h : q ≠ r) :
    (s.writeReg r v).readReg q = s.readReg q := by
  have : r.val ≠ q.val := fun e => h (Fin.ext e.symm)
  simp [State.readReg, this]

theorem readReg_writeReg (s : State) (r q : Reg) (v : Word) :
    (s.writeReg r v).readReg q = if q = r then v else s.readReg q := by
  by_cases h : q = r
  · subst h; simp
  · simp [h]

/-- Reading a register depends on the register file alone. -/
theorem readReg_congr {s t : State} (h : t.regs = s.regs) (r : Reg) : t.readReg r = s.readReg r := by
  simp [State.readReg, h]

/-- P3 reads 1 always (10_state.md R15). -/
@[simp] theorem readPred_three (s : State) : s.readPred 3 = true := rfl

/-- Everything a predicate write does to predicate reads: nothing for P3. -/
theorem readPred_writePred (s : State) (n m : PredReg) (b : Bool) :
    (s.writePred n b).readPred m = if m = n ∧ n ≠ 3 then b else s.readPred m := by
  match n, m with
  | 0, 0 | 0, 1 | 0, 2 | 0, 3 | 1, 0 | 1, 1 | 1, 2 | 1, 3 | 2, 0 | 2, 1 | 2, 2 | 2, 3 | 3, 0 | 3, 1 | 3, 2 | 3, 3 => rfl

/-- A write to P3 is ignored (10_state.md R15). -/
@[simp] theorem writePred_three (s : State) (b : Bool) : s.writePred 3 b = s := rfl

@[simp] theorem readReg_writePred (s : State) (n : PredReg) (b : Bool) (r : Reg) :
    (s.writePred n b).readReg r = s.readReg r := readReg_congr (by simp) r

/-! PFLAGS and the other coprocessor registers (10_state.md R19 to R28). -/

theorem getLsbD_setIe (s : State) (b : Bool) (i : Nat) :
    (s.setIe b).pflags.getLsbD i = if i = 0 then b else s.pflags.getLsbD i := by
  by_cases h32 : i < 32
  · interval_cases i <;> cases b <;> simp [State.setIe]
  · have hi : i ≠ 0 := by omega
    simp only [hi, if_false]
    rw [BitVec.getLsbD_of_ge _ _ (by omega), BitVec.getLsbD_of_ge _ _ (by omega)]

/-- IE after it is set (60_exceptions.md R235, 46_system.md R203). -/
@[simp] theorem ie_setIe (s : State) (b : Bool) : (s.setIe b).ie = b := by
  simp only [State.ie, getLsbD_setIe, if_true]

/-- PG is not touched by setting IE (10_state.md R20). -/
@[simp] theorem pg_setIe (s : State) (b : Bool) : (s.setIe b).pg = s.pg := by
  simp only [State.pg, getLsbD_setIe, Nat.one_ne_zero, if_false]

/-- Setting IE keeps PFLAGS bits 31:2 at 0. -/
theorem setIe_reserved (s : State) (b : Bool) (h : s.pflags.extractLsb' 2 30 = 0#30) :
    (s.setIe b).pflags.extractLsb' 2 30 = 0#30 := by
  apply BitVec.eq_of_getLsbD_eq
  intro i hi
  have h' := congrArg (fun v => v.getLsbD i) h
  simp only [BitVec.getLsbD_extractLsb', hi, decide_true, Bool.true_and] at h' ⊢
  rw [getLsbD_setIe, if_neg (by omega), h']

/-- A masked PFLAGS value has bits 31:2 at 0 (10_state.md R20). -/
theorem pflagsMask_reserved (v : Word) : (v &&& pflagsMask).extractLsb' 2 30 = 0#30 := by
  apply BitVec.eq_of_getLsbD_eq
  intro i hi
  simp only [BitVec.getLsbD_extractLsb', hi, decide_true, Bool.true_and, BitVec.getLsbD_and, pflagsMask]
  interval_cases i <;> simp

/-- Every defined coprocessor number names a register, and only those (10_state.md R19, R28). -/
theorem cprOf_isSome (n : CprNum) : (cprOf n).isSome = cprDefined n := by
  revert n; decide

/-- Everything a coprocessor write does to coprocessor reads (10_state.md R20, R27). -/
theorem readCpr_writeCpr (s : State) (c d : Cpr) (v : Word) :
    (s.writeCpr c v).readCpr d =
      if d = c then (if c = .pflags then v &&& pflagsMask else v) else s.readCpr d := by
  cases c <;> cases d <;> simp [State.writeCpr, State.readCpr, BitVec.and_assoc]

/-! Packet addresses (20_memory.md R46). -/

theorem packetAddr_aligned (a : Word) : (packetAddr a).extractLsb' 0 4 = 0#4 := by
  apply BitVec.eq_of_getLsbD_eq
  intro i hi
  simp only [BitVec.getLsbD_extractLsb', hi, decide_true, Bool.true_and, packetAddr, BitVec.getLsbD_and, Nat.zero_add]
  interval_cases i <;> simp

/-! Trap entry and return (60_exceptions.md R235, R240). -/

@[simp] theorem ie_trapEntry (c0 c1 c2 c3 : Word) (a0 a1 : Option Word) (s : State) :
    (trapEntry c0 c1 c2 c3 a0 a1 s).ie = false := ie_setIe s false

@[simp] theorem pg_trapEntry (c0 c1 c2 c3 : Word) (a0 a1 : Option Word) (s : State) :
    (trapEntry c0 c1 c2 c3 a0 a1 s).pg = s.pg := pg_setIe s false

@[simp] theorem readReg_trapEntry (c0 c1 c2 c3 : Word) (a0 a1 : Option Word) (s : State) (r : Reg) :
    (trapEntry c0 c1 c2 c3 a0 a1 s).readReg r = s.readReg r := rfl

@[simp] theorem readPred_trapEntry (c0 c1 c2 c3 : Word) (a0 a1 : Option Word) (s : State) (n : PredReg) :
    (trapEntry c0 c1 c2 c3 a0 a1 s).readPred n = s.readPred n := rfl

@[simp] theorem ie_trapReturn (s : State) : (trapReturn s).ie = s.epcIf := ie_setIe s _

@[simp] theorem pg_trapReturn (s : State) : (trapReturn s).pg = s.pg := pg_setIe s _

/-! Stores (20_memory.md R44, R57). -/

/-- A committed store leaves every byte outside its range alone. -/
theorem commitStore_read_outside (s : State) (pa : Word) (sz : Size) (v : Word) (y : Nat)
    (h : y < pa.toNat ∨ pa.toNat + sz.bytes ≤ y) : (s.commitStore pa sz v).mem.read y = s.mem.read y := by
  rcases commitStore_cases s pa sz v with ⟨_, e⟩ | ⟨_, e⟩ <;> rw [e]
  · exact Memory.read_writeSized_outside _ _ _ _ _ h
  · rfl

/-- A store to RAM is read back by a load of the same size (20_memory.md R66). -/
theorem storeRam_readSized (s : State) (pa : Word) (sz : Size) (v : Word) :
    (s.storeRam pa sz v).mem.readSized pa.toNat sz = sz.truncate v := Memory.readSized_writeSized _ _ _ _

/-- The bytes of an access that starts in RAM at an aligned address are all in RAM. -/
theorem aligned_in_ram (sz : Size) (pa : Word) (hr : isRam pa = true) (ha : pa.toNat % sz.bytes = 0) :
    pa.toNat + sz.bytes ≤ 0x20000000 := by
  have hr' : pa.toNat < 0x20000000 := by simpa [isRam] using hr
  cases sz <;> simp only [Size.bytes] at * <;> omega

/-! Translation (20_memory.md R50 to R58). -/

/-- With PG = 0 the physical address is the virtual address and nothing is walked (20_memory.md R50). -/
theorem translate_pg_off (s : State) (tlb : List TlbEntry) (port : Port) (va : Word) (st : Bool) (h : s.pg = false) :
    translate s tlb port va st = { fill := none, result := .ok va } := by simp [translate, h]

/-- Every way a translation with PG = 1 can go: through an entry of the TLB, or through a walk. -/
theorem translate_cases (s : State) (tlb : List TlbEntry) (port : Port) (va : Word) (st : Bool) (h : s.pg = true) :
    (∃ e, tlbLookup s tlb port va = some e ∧
        translate s tlb port va st = { fill := none, result := checkEntry s e va st }) ∨
    (∃ f, tlbLookup s tlb port va = none ∧ walk s port va = .error f ∧
        translate s tlb port va st = { fill := none, result := .error f }) ∨
    (∃ e, tlbLookup s tlb port va = none ∧ walk s port va = .ok e ∧
        translate s tlb port va st =
          { fill := if Config.tlbFills s.tick port then some e else none, result := checkEntry s e va st }) := by
  unfold translate
  rw [if_pos h]
  cases tlbLookup s tlb port va with
  | some e => exact .inl ⟨e, rfl, rfl⟩
  | none =>
    cases walk s port va with
    | error f => exact .inr (.inl ⟨f, rfl, rfl, rfl⟩)
    | ok e => exact .inr (.inr ⟨e, rfl, rfl, rfl⟩)

/-- The permission check, read off (20_memory.md R54). -/
theorem checkEntry_ok {s : State} {e : TlbEntry} {va : Word} {st : Bool} {pa : Word}
    (h : checkEntry s e va st = .ok pa) :
    (s.mode = .user → e.u = true) ∧ (st = true → e.w = true) ∧ pa = e.base ++ pageOffset va := by
  unfold checkEntry at h
  split at h
  · cases h
  · rename_i hn
    simp only [Bool.or_eq_true, Bool.and_eq_true, decide_eq_true_iff, Bool.not_eq_true', not_or, not_and,
      Bool.not_eq_false, Bool.not_eq_true] at hn
    exact ⟨hn.1, fun hs => by cases hw : e.w with
      | true => rfl
      | false => exact absurd (hn.2 hw) (by simp [hs]), by cases h; rfl⟩

/-- A valid translation succeeds exactly where the translation does and its physical address is valid. -/
theorem translateValid_ok {s : State} {tlb : List TlbEntry} {port : Port} {va : Word} {st : Bool} {pa : Word} :
    (translateValid s tlb port va st).result = .ok pa ↔
      (translate s tlb port va st).result = .ok pa ∧ validPhys pa = true := by
  unfold translateValid
  dsimp only
  cases h : (translate s tlb port va st).result with
  | error f => simp
  | ok q =>
    dsimp only
    split
    · rename_i hv
      constructor
      · intro e; cases e; exact ⟨rfl, hv⟩
      · rintro ⟨e, _⟩; exact e
    · rename_i hv
      constructor
      · intro e; cases e
      · rintro ⟨e, hv'⟩; cases e; exact absurd hv' hv

@[simp] theorem translateValid_fill (s : State) (tlb : List TlbEntry) (port : Port) (va : Word) (st : Bool) :
    (translateValid s tlb port va st).fill = (translate s tlb port va st).fill := rfl

/-- With PG = 0 a data access at a valid address goes to that address and fills no TLB. -/
theorem dataTranslation_pg_off (s : State) (k : Fin 4) (sz : Size) (ea : Word) (st : Bool) (h : s.pg = false)
    (hv : validPhys (sz.align ea) = true) :
    dataTranslation s k sz ea st = { fill := none, result := .ok (sz.align ea) } := by
  simp [dataTranslation, translateValid, translate_pg_off, h, hv]

/-- With PG = 0 the fetch of a valid packet address goes to that address. -/
theorem fetchTranslation_pg_off (s : State) (h : s.pg = false) (hv : validPhys s.pc = true) :
    fetchTranslation s = { fill := none, result := .ok s.pc } := by
  simp [fetchTranslation, translateValid, translate_pg_off, h, hv]

/-- Without a fill the packet executes in the state it was fetched in. -/
theorem afterFetch_of_no_fill (s : State) (h : (fetchTranslation s).fill = none) : afterFetch s = s := by
  simp [afterFetch, State.fillOption, h]

end Sys2Proof.Machine
end

