-- ==== Sys2Proof/Laws/Lane.lean ====
section
/-! SUPPORT. How a packet ends, said once: the inversion lemma of finishPacket, what a lone instruction does, and the
lanes of the usual shapes. -/

namespace Sys2Proof.Machine

/-! Predication (40_packet_execution.md R113). -/

@[simp] theorem Lane.gate_of_holds (p : Pred) (l : Lane) (s : State) (h : s.holds p = true) : l.gate p s = l := by
  simp [Lane.gate, h]

@[simp] theorem Lane.gate_of_not_holds (p : Pred) (l : Lane) (s : State) (h : s.holds p = false) :
    l.gate p s = l.unexecuted s := by
  simp [Lane.gate, h]

/-- A slot that does not execute contributes nothing where only executing slots count (R115), or where it has no
destination. -/
theorem Lane.unexecuted_eq_idle (l : Lane) (s : State) (h : s.params.dupDestDynamic = true ∨ l.dests = []) :
    l.unexecuted s = Lane.idle := by
  rcases h with h | h <;> simp [Lane.unexecuted, Lane.idle, h]

@[simp] theorem Lane.idle_gate (p : Pred) (s : State) : Lane.idle.gate p s = Lane.idle := by
  cases h : s.holds p
  · rw [Lane.gate_of_not_holds _ _ _ h, Lane.unexecuted_eq_idle _ _ (.inr rfl)]
  · simp [h]

/-! Duplicate destinations and the reported code (40_packet_execution.md R115, 60_exceptions.md R233). -/

@[simp] theorem collides_nil_right (ds : List Dest) : collides ds [] = false := by simp [collides]

@[simp] theorem collides_nil_left (ds : List Dest) : collides [] ds = false := rfl

@[simp] theorem reported_none_false : reported none false = none := rfl

@[simp] theorem reported_false (e : Option Exn) : reported e false = e := by
  cases e with
  | none => rfl
  | some e => cases e <;> rfl

/-- A lane reports something exactly when its own rule raised or its destination is duplicated. -/
theorem reported_isSome (e : Option Exn) (d : Bool) : (reported e d).isSome = (e.isSome || d) := by
  cases e with
  | none => cases d <;> rfl
  | some e => cases e <;> cases d <;> rfl

/-! Two memory slots (20_memory.md R71). -/

/-- Where the two accesses do not conflict, or there are not two, MEM_LANE_ORDER without a value leaves slot order. -/
theorem memoryWrites_of_no_conflict (l0 l1 : Lane) (s : State) (ho : s.params.memLaneOrder = none)
    (hc : accessConflict l0.access l1.access = false) : memoryWrites l0 l1 s = some (l0.writes ++ l1.writes) := by
  simp [memoryWrites, ho, hc]

/-- A packet is refused for its memory slots exactly where they conflict and MEM_LANE_ORDER has no value. -/
theorem memoryWrites_eq_none (l0 l1 : Lane) (s : State) :
    memoryWrites l0 l1 s = none ↔ s.params.memLaneOrder = none ∧ accessConflict l0.access l1.access = true := by
  unfold memoryWrites
  split
  · rename_i h; simp [h]
  · rename_i h; simp [h]
  · rename_i h; split <;> simp [h]

/-- Beside a slot that accesses no memory, the writes of slots 0 and 1 are theirs in slot order. -/
theorem memoryWrites_of_no_access (l0 l1 : Lane) (s : State) (h : l1.access = none) :
    memoryWrites l0 l1 s = some (l0.writes ++ l1.writes) := by
  unfold memoryWrites Lane.writesAfter
  cases l0.access <;> simp [h, accessConflict] <;> split <;> rfl

/-- Everything the writes of slots 0 and 1 can be. -/
theorem memoryWrites_cases {l0 l1 : Lane} {s : State} {ws : List Write} (h : memoryWrites l0 l1 s = some ws) :
    ws = l0.writes ++ l1.writes ∨
    (s.params.memLaneOrder = some .slot0First ∧ ws = l0.writes ++ l1.writesAfter l0.writes 1 s) ∨
    (s.params.memLaneOrder = some .slot1First ∧ ws = l1.writes ++ l0.writesAfter l1.writes 0 s) := by
  unfold memoryWrites at h
  split at h
  · split at h
    · cases h
    · exact .inl (by cases h; rfl)
  · rename_i ho
    exact .inr (.inl ⟨ho, by cases h; rfl⟩)
  · rename_i ho
    split at h
    · exact .inr (.inr ⟨ho, by cases h; rfl⟩)
    · exact .inl (by cases h; rfl)

/-- A slot that performs its access after the other differs from its own writes at most in the register a load
writes. -/
theorem Lane.writesAfter_cases (first : List Write) (l : Lane) (k : Fin 4) (s : State) :
    l.writesAfter first k s = l.writes ∨ ∃ rd v, l.writesAfter first k s = .reg rd v :: l.writes.drop 1 := by
  unfold Lane.writesAfter
  split
  · exact .inr ⟨_, _, rfl⟩
  · exact .inr ⟨_, _, rfl⟩
  · exact .inl rfl
  · exact .inl rfl
  · exact .inl rfl

/-! The end of a packet. -/

/-- Everything a packet that goes on can have done: it entered one trap with every lane's code, or it committed every
write. -/
theorem finishPacket_next {l0 l1 l2 l3 : Lane} {s t : State} (h : finishPacket l0 l1 l2 l3 s = .next t) :
    firstRefusal l0 l1 l2 l3 = none ∧
      ((∃ e0 e1 e2 e3,
          (e0.isSome || e1.isSome || e2.isSome || e3.isSome) = true ∧
          e0 = reported l0.exn (collides l0.dests (l1.dests ++ l2.dests ++ l3.dests)) ∧
          e1 = reported l1.exn (collides l1.dests (l0.dests ++ l2.dests ++ l3.dests)) ∧
          e2 = reported l2.exn (collides l2.dests (l0.dests ++ l1.dests ++ l3.dests)) ∧
          e3 = reported l3.exn (collides l3.dests (l0.dests ++ l1.dests ++ l2.dests)) ∧
          t = trapLanes e0 e1 e2 e3 (applyFills (l0.fills ++ l1.fills ++ l2.fills ++ l3.fills) s)) ∨
       (l0.exn = none ∧ l1.exn = none ∧ l2.exn = none ∧ l3.exn = none ∧
          collides l0.dests (l1.dests ++ l2.dests ++ l3.dests) = false ∧
          collides l1.dests (l0.dests ++ l2.dests ++ l3.dests) = false ∧
          collides l2.dests (l0.dests ++ l1.dests ++ l3.dests) = false ∧
          collides l3.dests (l0.dests ++ l1.dests ++ l2.dests) = false ∧
          ∃ ws, memoryWrites l0 l1 s = some ws ∧
            t = commit (ws ++ l2.writes ++ l3.writes)
                  (applyFills (l0.fills ++ l1.fills ++ l2.fills ++ l3.fills) s))) := by
  unfold finishPacket at h
  split at h
  · cases h
  · rename_i hr
    refine ⟨hr, ?_⟩
    dsimp only at h
    split at h
    · rename_i he
      exact .inl ⟨_, _, _, _, he, rfl, rfl, rfl, rfl, by cases h; rfl⟩
    · rename_i he
      simp only [reported_isSome, Bool.or_eq_true, not_or, Bool.not_eq_true, Option.isSome_eq_false_iff,
        Option.isNone_iff_eq_none] at he
      obtain ⟨⟨⟨⟨a0, b0⟩, a1, b1⟩, a2, b2⟩, a3, b3⟩ := he
      split at h
      · cases h
      · rename_i ws hw
        exact .inr ⟨a0, a1, a2, a3, b0, b1, b2, b3, ws, hw, by cases h; rfl⟩

/-- Everything a packet that is refused can be: a slot of it has no meaning, or its memory slots conflict and
MEM_LANE_ORDER has no value (30_encoding.md R104, 20_memory.md R71). -/
theorem finishPacket_refused {l0 l1 l2 l3 : Lane} {s : State} {r : Refusal}
    (h : finishPacket l0 l1 l2 l3 s = .refused r) :
    firstRefusal l0 l1 l2 l3 = some r ∨
      (r = .memorySlotsConflict ∧ s.params.memLaneOrder = none ∧ accessConflict l0.access l1.access = true) := by
  unfold finishPacket at h
  split at h
  · rename_i hr
    exact .inl (by cases h; exact hr)
  · dsimp only at h
    split at h
    · cases h
    · split at h
      · rename_i hw
        exact .inr ⟨by cases h; rfl, (memoryWrites_eq_none _ _ _).1 hw⟩
      · cases h

/-- A lone lane (the others idle): it is refused, or traps, or commits. -/
theorem finishPacket_alone (l : Lane) (s : State) :
    finishPacket l Lane.idle Lane.idle Lane.idle s =
      match l.refusal with
      | some r => .refused r
      | none =>
        match l.exn with
        | some e => .next (trapLanes (some e) none none none (applyFills l.fills s))
        | none => .next (commit l.writes (applyFills l.fills s)) := by
  unfold finishPacket firstRefusal
  cases hr : l.refusal with
  | some r => simp
  | none =>
    cases he : l.exn <;>
      simp [Lane.idle, memoryWrites_of_no_access]

/-- A false predicate: the instruction has no effect whatever, and the next packet follows (R113, R116). -/
theorem execAlone_skip (p : Pred) (l : Lane) (s : State) (h : s.holds p = false) :
    execAlone p l s = .next { s with pc := s.pc + 16#32 } := by
  rw [execAlone, Lane.gate_of_not_holds p l s h, finishPacket_alone]
  rfl

/-- A lone instruction without exception or refusal commits its writes. -/
theorem execAlone_commit (p : Pred) (l : Lane) (s : State) (h : s.holds p = true) (he : l.exn = none)
    (hr : l.refusal = none) : execAlone p l s = .next (commit l.writes (applyFills l.fills s)) := by
  rw [execAlone, Lane.gate_of_holds p l s h, finishPacket_alone, hr, he]

/-- A lone instruction that raises an exception takes the trap in lane 0. -/
theorem execAlone_trap (p : Pred) (l : Lane) (s : State) (e : Exn) (h : s.holds p = true) (he : l.exn = some e)
    (hr : l.refusal = none) :
    execAlone p l s = .next (trapLanes (some e) none none none (applyFills l.fills s)) := by
  rw [execAlone, Lane.gate_of_holds p l s h, finishPacket_alone, hr, he]

/-- A lone instruction without a meaning is refused. -/
theorem execAlone_refused (p : Pred) (l : Lane) (s : State) (r : Refusal) (h : s.holds p = true)
    (hr : l.refusal = some r) : execAlone p l s = .refused r := by
  rw [execAlone, Lane.gate_of_holds p l s h, finishPacket_alone, hr]

/-- A lone instruction that writes one register. -/
theorem execAlone_setReg (p : Pred) (rd : Reg) (v : Word) (s : State) (h : s.holds p = true) :
    execAlone p (Lane.setReg rd v) s = .next ({ s with pc := s.pc + 16#32 }.writeReg rd v) :=
  execAlone_commit p _ s h rfl rfl

/-- A lone instruction that writes one predicate. -/
theorem execAlone_setPred (p : Pred) (pd : PredReg) (b : Bool) (s : State) (h : s.holds p = true) :
    execAlone p (Lane.setPred pd b) s = .next ({ s with pc := s.pc + 16#32 }.writePred pd b) :=
  execAlone_commit p _ s h rfl rfl

/-- A lone instruction that writes one register and the overflow register. -/
theorem execAlone_setRegOvf (p : Pred) (rd : Reg) (v o : Word) (s : State) (h : s.holds p = true) :
    execAlone p (Lane.setRegOvf rd v o) s =
      .next { ({ s with pc := s.pc + 16#32 }.writeReg rd v) with ovf := o } :=
  execAlone_commit p _ s h rfl rfl

/-! Data accesses (20_memory.md R57). -/

/-- Everything a load's lane can be: a memory exception, or a register write with its access. -/
theorem Lane.load_cases (s : State) (k : Fin 4) (sz : Size) (sets : Bool) (rd : Reg) (ea : Word) :
    (∃ f, (dataTranslation s k sz ea false).result = .error f ∧
      Lane.load s k sz sets rd ea =
        { exn := some (dataExn ea f), dests := [.reg rd],
          fills := fillsOf .data (dataTranslation s k sz ea false) }) ∨
    (∃ pa, (dataTranslation s k sz ea false).result = .ok pa ∧
      Lane.load s k sz sets rd ea =
        { dests := [.reg rd]
          writes := .reg rd (loadValue s k pa sz) ::
            (loadEvents s k pa sz ++ if sets then [.link true] else [])
          fills := fillsOf .data (dataTranslation s k sz ea false)
          access := some { kind := if sets then .ll rd else .load rd, pa := pa, size := sz } }) := by
  unfold Lane.load
  dsimp only
  cases (dataTranslation s k sz ea false).result with
  | error f => exact .inl ⟨f, rfl, rfl⟩
  | ok pa => exact .inr ⟨pa, rfl, rfl⟩

/-- Everything a plain store's lane can be, with M = 0. -/
theorem Lane.store_cases (s : State) (k : Fin 4) (sz : Size) (ea v : Word) :
    (∃ f, (dataTranslation s k sz ea true).result = .error f ∧
      Lane.store s k sz false ea v =
        { exn := some (dataExn ea f), fills := fillsOf .data (dataTranslation s k sz ea true) }) ∨
    (∃ pa, (dataTranslation s k sz ea true).result = .ok pa ∧
      Lane.store s k sz false ea v =
        { writes := [.store pa sz v], fills := fillsOf .data (dataTranslation s k sz ea true),
          access := some { kind := .store, pa := pa, size := sz } }) := by
  unfold Lane.store
  simp only [Bool.false_eq_true, if_false]
  cases (dataTranslation s k sz ea true).result with
  | error f => exact .inl ⟨f, rfl, rfl⟩
  | ok pa => exact .inr ⟨pa, rfl, rfl⟩

/-- A pending write that is no ERET and no LL leaves the link bit's value settled. -/
theorem linkClash_of_no_return {ws : List Write} (h : Write.trapReturn ∉ ws) : linkClash ws = false := by
  simp [linkClash, h]

/-- Without a clash of link writes, commit is the writes in order after pc has moved on. -/
theorem commit_of_no_clash {ws : List Write} (h : linkClash ws = false) (s : State) :
    commit ws s = ws.foldl Write.apply { s with pc := s.pc + 16#32 } := by
  simp [commit, h]

end Sys2Proof.Machine
end

