-- ==== Sys2Proof/Laws/Effects.lean ====
section
/-! SUPPORT. The shared operations said once in the terms that claims use (Safety.lean): trap entry, and the lone
instruction that writes one register, one predicate or `ovf`. -/

namespace Sys2Proof.Machine

/-- Nothing has changed between a state and itself. -/
theorem keepsMemory_refl (s : State) : s.keepsMemory s := ⟨fun _ => rfl, rfl, rfl, rfl⟩

/-- Bit fields of the PC part of a packet address (20_memory.md R46). -/
theorem packetAddr_high (a : Word) : (packetAddr a).extractLsb' 4 28 = a.extractLsb' 4 28 := by
  apply BitVec.eq_of_getLsbD_eq
  intro i hi
  simp only [BitVec.getLsbD_extractLsb', hi, decide_true, Bool.true_and, packetAddr, BitVec.getLsbD_and]
  interval_cases i <;> simp

/-- A bit of a word with one bit set. -/
theorem getLsbD_bitAt (n : Fin 4) (b : Bool) (i : Nat) : (bitAt n.val b).getLsbD i = (b && decide (i = n.val)) := by
  by_cases h : i < 32
  · have : ∀ (n : Fin 4) (b : Bool) (i : Fin 32), (bitAt n.val b).getLsbD i.val = (b && decide (i.val = n.val)) := by
      decide
    exact this n b ⟨i, h⟩
  · rw [BitVec.getLsbD_of_ge _ _ (by omega), decide_eq_false (by omega), Bool.and_false]

/-- A bit of a packet address (20_memory.md R46). -/
theorem getLsbD_packetAddr_low (a : Word) {i : Nat} (h : i < 4) : (packetAddr a).getLsbD i = false := by
  simp only [packetAddr, BitVec.getLsbD_and]
  interval_cases i <;> simp

/-- The fields of EPC as trap entry writes it (10_state.md R23, 60_exceptions.md R235). -/
theorem savedEpc_fields (s : State) :
    s.savedEpc.extractLsb' 4 28 = s.pc.extractLsb' 4 28 ∧
      (∀ i : Fin 4, i ≠ s.params.epcMBit → i ≠ s.params.epcIfBit → s.savedEpc.getLsbD i.val = false) ∧
      s.savedEpc.getLsbD s.params.epcMBit.val = decide (s.mode = .kernel) ∧
      s.savedEpc.getLsbD s.params.epcIfBit.val = s.ie := by
  have hb : ∀ i, s.savedEpc.getLsbD i = ((packetAddr s.pc).getLsbD i ||
      (decide (s.mode = .kernel) && decide (i = s.params.epcMBit.val)) ||
      (s.ie && decide (i = s.params.epcIfBit.val))) := fun i => by
    simp only [State.savedEpc, BitVec.getLsbD_or, getLsbD_bitAt]
  have hne : s.params.epcMBit.val ≠ s.params.epcIfBit.val := fun e => s.params.epcBitsDiffer (Fin.ext e)
  refine ⟨?_, fun i hm hi => ?_, ?_, ?_⟩
  · rw [← packetAddr_high s.pc]
    apply BitVec.eq_of_getLsbD_eq
    intro i hi
    have hm : 4 + i ≠ s.params.epcMBit.val := by have := s.params.epcMBit.isLt; omega
    have hf : 4 + i ≠ s.params.epcIfBit.val := by have := s.params.epcIfBit.isLt; omega
    simp only [BitVec.getLsbD_extractLsb', hi, decide_true, Bool.true_and, hb, decide_eq_false hm, decide_eq_false hf,
      Bool.and_false, Bool.or_false]
  · have hm' : i.val ≠ s.params.epcMBit.val := fun e => hm (Fin.ext e)
    have hi' : i.val ≠ s.params.epcIfBit.val := fun e => hi (Fin.ext e)
    rw [hb, getLsbD_packetAddr_low _ i.isLt, decide_eq_false hm', decide_eq_false hi']
    simp
  · rw [hb, getLsbD_packetAddr_low _ s.params.epcMBit.isLt, decide_eq_false hne]
    simp
  · rw [hb, getLsbD_packetAddr_low _ s.params.epcIfBit.isLt, decide_eq_false (Ne.symm hne)]
    simp

/-- Setting IE changes no other bit of PFLAGS (60_exceptions.md R235). -/
theorem setIe_otherBits (s : State) (b : Bool) :
    (s.setIe b).pflags.extractLsb' 1 31 = s.pflags.extractLsb' 1 31 := by
  apply BitVec.eq_of_getLsbD_eq
  intro i hi
  unfold State.setIe
  simp only [BitVec.getLsbD_extractLsb', hi, decide_true, Bool.true_and, BitVec.getLsbD_or, BitVec.getLsbD_and]
  cases b <;> interval_cases i <;> simp

/-- Everything trap entry does (60_exceptions.md R235 to R237). -/
theorem trapEntry_trapped (c0 c1 c2 c3 : Word) (a0 a1 : Option Word) (s : State) :
    s.Trapped (trapEntry c0 c1 c2 c3 a0 a1 s) c0 c1 c2 c3 (a0.getD s.ea0) (a1.getD s.ea1) where
  epcPc := (savedEpc_fields s).1
  epcZero := (savedEpc_fields s).2.1
  epcM := (savedEpc_fields s).2.2.1
  epcIf := (savedEpc_fields s).2.2.2
  ec0 := rfl
  ec1 := rfl
  ec2 := rfl
  ec3 := rfl
  ea0 := rfl
  ea1 := rfl
  mode := rfl
  ie := ie_trapEntry c0 c1 c2 c3 a0 a1 s
  pflags := setIe_otherBits s false
  link := rfl
  pcHigh := packetAddr_high s.eha
  pcLow := packetAddr_aligned s.eha
  regs := fun _ => rfl
  preds := fun _ => rfl
  ovf := rfl
  ptb := rfl
  eha := rfl
  sp0 := rfl
  sp1 := rfl
  sp2 := rfl
  sp3 := rfl
  memory := keepsMemory_refl s
  params := rfl

/-- A state that differs only in its TLBs traps to the same effects. -/
theorem trapEntry_applyFills_trapped (fs : List Fill) (c0 c1 c2 c3 : Word) (a0 a1 : Option Word) (s : State) :
    s.Trapped (trapEntry c0 c1 c2 c3 a0 a1 (applyFills fs s)) c0 c1 c2 c3 (a0.getD s.ea0) (a1.getD s.ea1) :=
  let h := trapEntry_trapped c0 c1 c2 c3 a0 a1 (applyFills fs s)
  ⟨h.epcPc, h.epcZero, h.epcM, h.epcIf, h.ec0, h.ec1, h.ec2, h.ec3, h.ea0, h.ea1, h.mode, h.ie, h.pflags, h.link,
    h.pcHigh, h.pcLow, h.regs, h.preds, h.ovf, h.ptb, h.eha, h.sp0, h.sp1, h.sp2, h.sp3, h.memory, h.params⟩

/-- What a data access's table walk leaves in the data TLB (20_memory.md R58). -/
theorem applyFills_fillsOf_data (t : Translation) (s : State) :
    (applyFills (fillsOf .data t) s).dtlb = (s.fillOption .data t.fill).dtlb ∧
      (applyFills (fillsOf .data t) s).itlb = s.itlb := by
  unfold applyFills fillsOf
  cases t.fill <;> exact ⟨rfl, rfl⟩

/-- What a FLUSH.INST's table walk leaves in the instruction TLB (20_memory.md R58). -/
theorem applyFills_fillsOf_inst (t : Translation) (s : State) :
    (applyFills (fillsOf .inst t) s).itlb = (s.fillOption .inst t.fill).itlb ∧
      (applyFills (fillsOf .inst t) s).dtlb = s.dtlb := by
  unfold applyFills fillsOf
  cases t.fill <;> exact ⟨rfl, rfl⟩

/-- A lone instruction that raises takes the trap in lane 0, with its code and address. -/
theorem execAlone_trapped (p : Pred) (l : Lane) (s : State) (e : Exn) (h : s.holds p = true) (he : l.exn = some e)
    (hr : l.refusal = none) :
    ∃ t, execAlone p l s = .next t ∧ s.Trapped t e.code 0#32 0#32 0#32 (e.ea.getD s.ea0) s.ea1 ∧
      t.dtlb = (applyFills l.fills s).dtlb ∧ t.itlb = (applyFills l.fills s).itlb ∧ s.keepsEnvironment t := by
  exact ⟨_, execAlone_trap p l s e h he hr,
    trapEntry_applyFills_trapped l.fills e.code 0#32 0#32 0#32 e.ea none s, rfl, rfl, rfl, rfl, rfl⟩

/-- The lone instruction `x[rd] <- v`. -/
theorem execAlone_wroteReg (p : Pred) (rd : Reg) (v : Word) (s : State) (h : s.holds p = true) :
    ∃ t, execAlone p (Lane.setReg rd v) s = .next t ∧ s.WroteReg t rd v := by
  refine ⟨_, execAlone_setReg p rd v s h, ?_⟩
  exact
    { value := by simp
      regs := fun r hr => by rw [readReg_writeReg, if_neg hr]; rfl
      preds := fun _ => rfl
      ovf := rfl
      link := rfl
      memory := keepsMemory_refl s
      tlbs := ⟨rfl, rfl⟩
      rest := ⟨rfl, ⟨rfl, rfl, fun _ => rfl⟩, rfl, rfl, rfl⟩ }

/-- The lone instruction `p[pd] <- b`. -/
theorem execAlone_wrotePred (p : Pred) (pd : PredReg) (b : Bool) (s : State) (h : s.holds p = true) :
    ∃ t, execAlone p (Lane.setPred pd b) s = .next t ∧ s.WrotePred t pd b := by
  refine ⟨_, execAlone_setPred p pd b s h, ?_⟩
  exact
    { value := fun hp => by rw [readPred_writePred]; simp [hp]
      p3 := by simp
      preds := fun n hn => by rw [readPred_writePred]; simp [hn]; rfl
      regs := fun r => by simp; rfl
      ovf := by simp
      link := by simp
      memory := by
        refine ⟨fun a => ?_, ?_, ?_, ?_⟩ <;> simp
      tlbs := by constructor <;> simp
      rest := ⟨by simp, ⟨by simp, by simp, fun c => by cases c <;> simp [State.readCpr]⟩, by simp, by simp, by simp⟩ }

/-- The lone instruction that writes one register and `ovf`. -/
theorem execAlone_onlyRegOvf (p : Pred) (rd : Reg) (v o : Word) (s : State) (h : s.holds p = true) :
    ∃ t, execAlone p (Lane.setRegOvf rd v o) s = .next t ∧ s.OnlyRegOvf t rd ∧ t.readReg rd = v ∧ t.ovf = o := by
  refine ⟨_, execAlone_setRegOvf p rd v o s h, ?_, ?_, rfl⟩
  · exact
      { regs := fun r hr => by
          show (State.writeReg { s with pc := s.pc + 16#32 } rd v).readReg r = s.readReg r
          rw [readReg_writeReg, if_neg hr]; rfl
        preds := fun _ => rfl
        link := rfl
        memory := keepsMemory_refl s
        tlbs := ⟨rfl, rfl⟩
        rest := ⟨rfl, ⟨rfl, rfl, fun _ => rfl⟩, rfl, rfl, rfl⟩ }
  · show (State.writeReg { s with pc := s.pc + 16#32 } rd v).readReg rd = v
    simp

end Sys2Proof.Machine
end

