-- ==== Sys2Proof/Laws/PerInstr.lean ====
section
/-! SUPPORT. One family of statements over every instruction: its encoded first word has the fixed bits of its row of
spec/opcode_table.json (30_encoding.md R96, the masks and match values). -/

namespace Sys2Proof

/-- The mask of the fixed bits of an instruction's row (30_encoding.md R96). -/
def rowMask : Instr → Word
  | .addShort _ _ _ _ _ => 0x10003C00#32
  | .addReg _ _ _ _ _ _ => 0x1C003C00#32
  | .addLong _ _ _ _ => 0x1FFFFC00#32
  | .andShort _ _ _ _ _ => 0x10003C00#32
  | .andReg _ _ _ _ _ _ => 0x1C003C00#32
  | .andLong _ _ _ _ => 0x1FFFFC00#32
  | .norShort _ _ _ _ _ => 0x10003C00#32
  | .norReg _ _ _ _ _ _ => 0x1C003C00#32
  | .norLong _ _ _ _ => 0x1FFFFC00#32
  | .orShort _ _ _ _ _ => 0x10003C00#32
  | .orReg _ _ _ _ _ _ => 0x1C003C00#32
  | .orLong _ _ _ _ => 0x1FFFFC00#32
  | .subShort _ _ _ _ _ => 0x10003C00#32
  | .subReg _ _ _ _ _ _ => 0x1C003C00#32
  | .subLong _ _ _ _ => 0x1FFFFC00#32
  | .rsbShort _ _ _ _ _ => 0x10003C00#32
  | .rsbReg _ _ _ _ _ _ => 0x1C003C00#32
  | .rsbLong _ _ _ _ => 0x1FFFFC00#32
  | .xorShort _ _ _ _ _ => 0x10003C00#32
  | .xorReg _ _ _ _ _ _ => 0x1C003C00#32
  | .xorLong _ _ _ _ => 0x1FFFFC00#32
  | .movShort _ _ _ _ _ => 0x10003C00#32
  | .movReg _ _ _ _ _ => 0x1C003C00#32
  | .movRegsh _ _ _ _ _ => 0x1FE03C00#32
  | .movLong _ _ _ => 0x1FFFFC00#32
  | .mvnShort _ _ _ _ _ => 0x10003C00#32
  | .mvnReg _ _ _ _ _ => 0x1C003C00#32
  | .mvnRegsh _ _ _ _ _ => 0x1FE03C00#32
  | .mvnLong _ _ _ => 0x1FFFFC00#32
  | .sxbShort _ _ _ _ _ => 0x10003C00#32
  | .sxbReg _ _ _ _ _ => 0x1C003C00#32
  | .sxbRegsh _ _ _ _ _ => 0x1FE03C00#32
  | .sxbLong _ _ _ => 0x1FFFFC00#32
  | .sxhShort _ _ _ _ _ => 0x10003C00#32
  | .sxhReg _ _ _ _ _ => 0x1C003C00#32
  | .sxhRegsh _ _ _ _ _ => 0x1FE03C00#32
  | .sxhLong _ _ _ => 0x1FFFFC00#32
  | .cmpltuShort _ _ _ _ _ => 0x10003F80#32
  | .cmpltuReg _ _ _ _ _ _ => 0x1C003F80#32
  | .cmpltuLong _ _ _ _ => 0x1FFFFF80#32
  | .cmpleuShort _ _ _ _ _ => 0x10003F80#32
  | .cmpleuReg _ _ _ _ _ _ => 0x1C003F80#32
  | .cmpleuLong _ _ _ _ => 0x1FFFFF80#32
  | .cmpeqShort _ _ _ _ _ => 0x10003F80#32
  | .cmpeqReg _ _ _ _ _ _ => 0x1C003F80#32
  | .cmpeqLong _ _ _ _ => 0x1FFFFF80#32
  | .cmpltsShort _ _ _ _ _ => 0x10003F80#32
  | .cmpltsReg _ _ _ _ _ _ => 0x1C003F80#32
  | .cmpltsLong _ _ _ _ => 0x1FFFFF80#32
  | .cmplesShort _ _ _ _ _ => 0x10003F80#32
  | .cmplesReg _ _ _ _ _ _ => 0x1C003F80#32
  | .cmplesLong _ _ _ _ => 0x1FFFFF80#32
  | .cmpbsShort _ _ _ _ _ => 0x10003F80#32
  | .cmpbsReg _ _ _ _ _ _ => 0x1C003F80#32
  | .cmpbsLong _ _ _ _ => 0x1FFFFF80#32
  | .cmpbcShort _ _ _ _ _ => 0x10003F80#32
  | .cmpbcReg _ _ _ _ _ _ => 0x1C003F80#32
  | .cmpbcLong _ _ _ _ => 0x1FFFFF80#32
  | .lb _ _ _ _ => 0x1E001C00#32
  | .lh _ _ _ _ => 0x1E001C00#32
  | .lw _ _ _ _ => 0x1E001C00#32
  | .ll _ _ _ _ => 0x1E001C00#32
  | .sb _ _ _ _ _ => 0x1E001C00#32
  | .sh _ _ _ _ _ => 0x1E001C00#32
  | .sw _ _ _ _ _ => 0x1E001C00#32
  | .sc _ _ _ _ _ => 0x1E001C00#32
  | .bImm _ _ => 0x1E000000#32
  | .bReg _ _ _ => 0x1E000000#32
  | .blImm _ _ => 0x1E000000#32
  | .blReg _ _ _ => 0x1E000000#32
  | .brk _ => 0x1FF00000#32
  | .syscall _ => 0x1FF00000#32
  | .fence _ => 0x1FF00000#32
  | .eret _ => 0x1FF00000#32
  | .flush _ _ _ _ => 0x1FF00000#32
  | .mfc _ _ _ => 0x1FF00000#32
  | .mtc _ _ _ => 0x1FF00000#32
  | .mult _ _ _ _ _ => 0x1FF00000#32
  | .div _ _ _ _ _ _ => 0x1FF00000#32
  | .mfhi _ _ => 0x1FF00000#32
  | .mthi _ _ => 0x1FF00000#32

/-- The value of the fixed bits of an instruction's row (30_encoding.md R96). -/
def rowMatch : Instr → Word
  | .addShort _ _ _ _ _ => 0x00000000#32
  | .addReg _ _ _ _ _ _ => 0x14000000#32
  | .addLong _ _ _ _ => 0x10000000#32
  | .andShort _ _ _ _ _ => 0x00000400#32
  | .andReg _ _ _ _ _ _ => 0x14000400#32
  | .andLong _ _ _ _ => 0x10000400#32
  | .norShort _ _ _ _ _ => 0x00000800#32
  | .norReg _ _ _ _ _ _ => 0x14000800#32
  | .norLong _ _ _ _ => 0x10000800#32
  | .orShort _ _ _ _ _ => 0x00000C00#32
  | .orReg _ _ _ _ _ _ => 0x14000C00#32
  | .orLong _ _ _ _ => 0x10000C00#32
  | .subShort _ _ _ _ _ => 0x00001000#32
  | .subReg _ _ _ _ _ _ => 0x14001000#32
  | .subLong _ _ _ _ => 0x10001000#32
  | .rsbShort _ _ _ _ _ => 0x00001400#32
  | .rsbReg _ _ _ _ _ _ => 0x14001400#32
  | .rsbLong _ _ _ _ => 0x10001400#32
  | .xorShort _ _ _ _ _ => 0x00001800#32
  | .xorReg _ _ _ _ _ _ => 0x14001800#32
  | .xorLong _ _ _ _ => 0x10001800#32
  | .movShort _ _ _ _ _ => 0x00002000#32
  | .movReg _ _ _ _ _ => 0x14002000#32
  | .movRegsh _ _ _ _ _ => 0x10202000#32
  | .movLong _ _ _ => 0x10002000#32
  | .mvnShort _ _ _ _ _ => 0x00002400#32
  | .mvnReg _ _ _ _ _ => 0x14002400#32
  | .mvnRegsh _ _ _ _ _ => 0x10202400#32
  | .mvnLong _ _ _ => 0x10002400#32
  | .sxbShort _ _ _ _ _ => 0x00002800#32
  | .sxbReg _ _ _ _ _ => 0x14002800#32
  | .sxbRegsh _ _ _ _ _ => 0x10202800#32
  | .sxbLong _ _ _ => 0x10002800#32
  | .sxhShort _ _ _ _ _ => 0x00002C00#32
  | .sxhReg _ _ _ _ _ => 0x14002C00#32
  | .sxhRegsh _ _ _ _ _ => 0x10202C00#32
  | .sxhLong _ _ _ => 0x10002C00#32
  | .cmpltuShort _ _ _ _ _ => 0x00001C00#32
  | .cmpltuReg _ _ _ _ _ _ => 0x14001C00#32
  | .cmpltuLong _ _ _ _ => 0x10001C00#32
  | .cmpleuShort _ _ _ _ _ => 0x00001C80#32
  | .cmpleuReg _ _ _ _ _ _ => 0x14001C80#32
  | .cmpleuLong _ _ _ _ => 0x10001C80#32
  | .cmpeqShort _ _ _ _ _ => 0x00001D00#32
  | .cmpeqReg _ _ _ _ _ _ => 0x14001D00#32
  | .cmpeqLong _ _ _ _ => 0x10001D00#32
  | .cmpltsShort _ _ _ _ _ => 0x00001E00#32
  | .cmpltsReg _ _ _ _ _ _ => 0x14001E00#32
  | .cmpltsLong _ _ _ _ => 0x10001E00#32
  | .cmplesShort _ _ _ _ _ => 0x00001E80#32
  | .cmplesReg _ _ _ _ _ _ => 0x14001E80#32
  | .cmplesLong _ _ _ _ => 0x10001E80#32
  | .cmpbsShort _ _ _ _ _ => 0x00001F00#32
  | .cmpbsReg _ _ _ _ _ _ => 0x14001F00#32
  | .cmpbsLong _ _ _ _ => 0x10001F00#32
  | .cmpbcShort _ _ _ _ _ => 0x00001F80#32
  | .cmpbcReg _ _ _ _ _ _ => 0x14001F80#32
  | .cmpbcLong _ _ _ _ => 0x10001F80#32
  | .lb _ _ _ _ => 0x12000000#32
  | .lh _ _ _ _ => 0x12000400#32
  | .lw _ _ _ _ => 0x12000800#32
  | .ll _ _ _ _ => 0x12000C00#32
  | .sb _ _ _ _ _ => 0x12001000#32
  | .sh _ _ _ _ _ => 0x12001400#32
  | .sw _ _ _ _ _ => 0x12001800#32
  | .sc _ _ _ _ _ => 0x12001C00#32
  | .bImm _ _ => 0x18000000#32
  | .bReg _ _ _ => 0x1C000000#32
  | .blImm _ _ => 0x1A000000#32
  | .blReg _ _ _ => 0x1E000000#32
  | .brk _ => 0x11100000#32
  | .syscall _ => 0x11200000#32
  | .fence _ => 0x11300000#32
  | .eret _ => 0x11400000#32
  | .flush _ _ _ _ => 0x11500000#32
  | .mfc _ _ _ => 0x11600000#32
  | .mtc _ _ _ => 0x11700000#32
  | .mult _ _ _ _ _ => 0x11800000#32
  | .div _ _ _ _ _ _ => 0x11900000#32
  | .mfhi _ _ => 0x11A00000#32
  | .mthi _ _ => 0x11B00000#32

/-! The fixed bits of each format (30_encoding.md R82 to R94), bit by bit. -/

theorem fmtAlu2Short_fixed (p : Pred) (op : BitVec 4) (c : BitVec 10) (rot : BitVec 4) (rd rs : Reg) :
    fmtAlu2Short p op c rot rd rs &&& 0x10003C00#32 = op.zeroExtend 32 <<< 10 := by
  apply BitVec.eq_of_getLsbD_eq
  intro i hi
  unfold fmtAlu2Short bitsOfPred
  simp only [BitVec.getLsbD_and, BitVec.getLsbD_append]
  interval_cases i <;> simp

theorem fmtCmpShort_fixed (p : Pred) (ct : BitVec 3) (c : BitVec 10) (rot : BitVec 4) (pd : PredReg) (rs : Reg) :
    fmtCmpShort p ct c rot pd rs &&& 0x10003F80#32 = 0x00001C00#32 ||| ct.zeroExtend 32 <<< 7 := by
  apply BitVec.eq_of_getLsbD_eq
  intro i hi
  unfold fmtCmpShort bitsOfPred
  simp only [BitVec.getLsbD_and, BitVec.getLsbD_append]
  interval_cases i <;> simp

theorem fmtAlu1Short_fixed (p : Pred) (op : BitVec 4) (lo : BitVec 10) (rot : BitVec 4) (rd : Reg) (hi : BitVec 5) :
    fmtAlu1Short p op lo rot rd hi &&& 0x10003C00#32 = op.zeroExtend 32 <<< 10 := by
  apply BitVec.eq_of_getLsbD_eq
  intro i hi
  unfold fmtAlu1Short bitsOfPred
  simp only [BitVec.getLsbD_and, BitVec.getLsbD_append]
  interval_cases i <;> simp

theorem fmtAlu2Reg_fixed (p : Pred) (op : BitVec 4) (amt : BitVec 5) (shf : Shf) (rt rd rs : Reg) :
    fmtAlu2Reg p op amt shf rt rd rs &&& 0x1C003C00#32 = 0x14000000#32 ||| op.zeroExtend 32 <<< 10 := by
  apply BitVec.eq_of_getLsbD_eq
  intro i hi
  unfold fmtAlu2Reg bitsOfPred
  simp only [BitVec.getLsbD_and, BitVec.getLsbD_append]
  interval_cases i <;> simp

theorem fmtCmpReg_fixed (p : Pred) (ct : BitVec 3) (amt : BitVec 5) (shf : Shf) (rt : Reg) (pd : PredReg) (rs : Reg) :
    fmtCmpReg p ct amt shf rt pd rs &&& 0x1C003F80#32 = 0x14001C00#32 ||| ct.zeroExtend 32 <<< 7 := by
  apply BitVec.eq_of_getLsbD_eq
  intro i hi
  unfold fmtCmpReg bitsOfPred
  simp only [BitVec.getLsbD_and, BitVec.getLsbD_append]
  interval_cases i <;> simp

theorem fmtAlu1Reg_fixed (p : Pred) (op : BitVec 4) (amt : BitVec 5) (shf : Shf) (rt rd : Reg) :
    fmtAlu1Reg p op amt shf rt rd &&& 0x1C003C00#32 = 0x14000000#32 ||| op.zeroExtend 32 <<< 10 := by
  apply BitVec.eq_of_getLsbD_eq
  intro i hi
  unfold fmtAlu1Reg bitsOfPred
  simp only [BitVec.getLsbD_and, BitVec.getLsbD_append]
  interval_cases i <;> simp

theorem fmtLoad_fixed (p : Pred) (lsu : BitVec 3) (off : BitVec 12) (rd rs : Reg) :
    fmtLoad p lsu off rd rs &&& 0x1E001C00#32 = 0x12000000#32 ||| lsu.zeroExtend 32 <<< 10 := by
  apply BitVec.eq_of_getLsbD_eq
  intro i hi
  unfold fmtLoad bitsOfPred
  simp only [BitVec.getLsbD_and, BitVec.getLsbD_append]
  interval_cases i <;> simp

theorem fmtStore_fixed (p : Pred) (lsu : BitVec 3) (off : BitVec 11) (m : Bool) (rt rs : Reg) :
    fmtStore p lsu off m rt rs &&& 0x1E001C00#32 = 0x12000000#32 ||| lsu.zeroExtend 32 <<< 10 := by
  apply BitVec.eq_of_getLsbD_eq
  intro i hi
  unfold fmtStore bitsOfPred
  simp only [BitVec.getLsbD_and, BitVec.getLsbD_append]
  interval_cases i <;> simp

theorem fmtBrImm_fixed (p : Pred) (l : Bool) (off : BitVec 25) :
    fmtBrImm p l off &&& 0x1E000000#32 = 0x18000000#32 ||| (BitVec.ofBool l).zeroExtend 32 <<< 25 := by
  apply BitVec.eq_of_getLsbD_eq
  intro i hi
  unfold fmtBrImm bitsOfPred
  simp only [BitVec.getLsbD_and, BitVec.getLsbD_append]
  interval_cases i <;> simp

theorem fmtBrReg_fixed (p : Pred) (l : Bool) (off : BitVec 20) (rs : Reg) :
    fmtBrReg p l off rs &&& 0x1E000000#32 = 0x1C000000#32 ||| (BitVec.ofBool l).zeroExtend 32 <<< 25 := by
  apply BitVec.eq_of_getLsbD_eq
  intro i hi
  unfold fmtBrReg bitsOfPred
  simp only [BitVec.getLsbD_and, BitVec.getLsbD_append]
  interval_cases i <;> simp

theorem fmtCtrl_fixed (p : Pred) (op : BitVec 4) (b19 : Bool) (f18 : BitVec 5) (b13 : Bool) (f11 : BitVec 2) (f9 f4 : BitVec 5) :
    fmtCtrl p op b19 f18 b13 f11 f9 f4 &&& 0x1FF00000#32 = 0x11000000#32 ||| op.zeroExtend 32 <<< 20 := by
  apply BitVec.eq_of_getLsbD_eq
  intro i hi
  unfold fmtCtrl bitsOfPred
  simp only [BitVec.getLsbD_and, BitVec.getLsbD_append]
  interval_cases i <;> simp

theorem fmtAlu1Regsh_fixed (p : Pred) (op : BitVec 4) (shf : Shf) (rt rd rs : Reg) :
    fmtAlu1Regsh p op shf rt rd rs &&& 0x1FE03C00#32 = 0x10200000#32 ||| op.zeroExtend 32 <<< 10 := by
  apply BitVec.eq_of_getLsbD_eq
  intro i hi
  unfold fmtAlu1Regsh bitsOfPred
  simp only [BitVec.getLsbD_and, BitVec.getLsbD_append]
  interval_cases i <;> simp

theorem fmtAluLong_fixed (p : Pred) (op : BitVec 4) (rd : Reg) (low : BitVec 5) :
    fmtAluLong p op rd low &&& 0x1FFFFC00#32 = 0x10000000#32 ||| op.zeroExtend 32 <<< 10 := by
  apply BitVec.eq_of_getLsbD_eq
  intro i hi
  unfold fmtAluLong bitsOfPred
  simp only [BitVec.getLsbD_and, BitVec.getLsbD_append]
  interval_cases i <;> simp

theorem fmtCmpLong_fixed (p : Pred) (ct : BitVec 3) (pd : PredReg) (rs : Reg) :
    fmtCmpLong p ct pd rs &&& 0x1FFFFF80#32 = 0x10001C00#32 ||| ct.zeroExtend 32 <<< 7 := by
  apply BitVec.eq_of_getLsbD_eq
  intro i hi
  unfold fmtCmpLong bitsOfPred
  simp only [BitVec.getLsbD_and, BitVec.getLsbD_append]
  interval_cases i <;> simp

/-- Encoding an instruction gives a word with the fixed bits of its row. -/
def Laws.MatchesTableRow.Statement (i : Instr) : Prop := encodeWord i &&& rowMask i = rowMatch i

theorem Laws.MatchesTableRow.addShort (p : Pred) (c : BitVec 10) (rot : BitVec 4) (rd rs : Reg) :
    Laws.MatchesTableRow.Statement (.addShort p c rot rd rs) := fmtAlu2Short_fixed ..

theorem Laws.MatchesTableRow.addReg (p : Pred) (amt : BitVec 5) (shf : Shf) (rt rd rs : Reg) :
    Laws.MatchesTableRow.Statement (.addReg p amt shf rt rd rs) := fmtAlu2Reg_fixed ..

theorem Laws.MatchesTableRow.addLong (p : Pred) (rd rs : Reg) (imm : Word) :
    Laws.MatchesTableRow.Statement (.addLong p rd rs imm) := fmtAluLong_fixed ..

theorem Laws.MatchesTableRow.andShort (p : Pred) (c : BitVec 10) (rot : BitVec 4) (rd rs : Reg) :
    Laws.MatchesTableRow.Statement (.andShort p c rot rd rs) := fmtAlu2Short_fixed ..

theorem Laws.MatchesTableRow.andReg (p : Pred) (amt : BitVec 5) (shf : Shf) (rt rd rs : Reg) :
    Laws.MatchesTableRow.Statement (.andReg p amt shf rt rd rs) := fmtAlu2Reg_fixed ..

theorem Laws.MatchesTableRow.andLong (p : Pred) (rd rs : Reg) (imm : Word) :
    Laws.MatchesTableRow.Statement (.andLong p rd rs imm) := fmtAluLong_fixed ..

theorem Laws.MatchesTableRow.norShort (p : Pred) (c : BitVec 10) (rot : BitVec 4) (rd rs : Reg) :
    Laws.MatchesTableRow.Statement (.norShort p c rot rd rs) := fmtAlu2Short_fixed ..

theorem Laws.MatchesTableRow.norReg (p : Pred) (amt : BitVec 5) (shf : Shf) (rt rd rs : Reg) :
    Laws.MatchesTableRow.Statement (.norReg p amt shf rt rd rs) := fmtAlu2Reg_fixed ..

theorem Laws.MatchesTableRow.norLong (p : Pred) (rd rs : Reg) (imm : Word) :
    Laws.MatchesTableRow.Statement (.norLong p rd rs imm) := fmtAluLong_fixed ..

theorem Laws.MatchesTableRow.orShort (p : Pred) (c : BitVec 10) (rot : BitVec 4) (rd rs : Reg) :
    Laws.MatchesTableRow.Statement (.orShort p c rot rd rs) := fmtAlu2Short_fixed ..

theorem Laws.MatchesTableRow.orReg (p : Pred) (amt : BitVec 5) (shf : Shf) (rt rd rs : Reg) :
    Laws.MatchesTableRow.Statement (.orReg p amt shf rt rd rs) := fmtAlu2Reg_fixed ..

theorem Laws.MatchesTableRow.orLong (p : Pred) (rd rs : Reg) (imm : Word) :
    Laws.MatchesTableRow.Statement (.orLong p rd rs imm) := fmtAluLong_fixed ..

theorem Laws.MatchesTableRow.subShort (p : Pred) (c : BitVec 10) (rot : BitVec 4) (rd rs : Reg) :
    Laws.MatchesTableRow.Statement (.subShort p c rot rd rs) := fmtAlu2Short_fixed ..

theorem Laws.MatchesTableRow.subReg (p : Pred) (amt : BitVec 5) (shf : Shf) (rt rd rs : Reg) :
    Laws.MatchesTableRow.Statement (.subReg p amt shf rt rd rs) := fmtAlu2Reg_fixed ..

theorem Laws.MatchesTableRow.subLong (p : Pred) (rd rs : Reg) (imm : Word) :
    Laws.MatchesTableRow.Statement (.subLong p rd rs imm) := fmtAluLong_fixed ..

theorem Laws.MatchesTableRow.rsbShort (p : Pred) (c : BitVec 10) (rot : BitVec 4) (rd rs : Reg) :
    Laws.MatchesTableRow.Statement (.rsbShort p c rot rd rs) := fmtAlu2Short_fixed ..

theorem Laws.MatchesTableRow.rsbReg (p : Pred) (amt : BitVec 5) (shf : Shf) (rt rd rs : Reg) :
    Laws.MatchesTableRow.Statement (.rsbReg p amt shf rt rd rs) := fmtAlu2Reg_fixed ..

theorem Laws.MatchesTableRow.rsbLong (p : Pred) (rd rs : Reg) (imm : Word) :
    Laws.MatchesTableRow.Statement (.rsbLong p rd rs imm) := fmtAluLong_fixed ..

theorem Laws.MatchesTableRow.xorShort (p : Pred) (c : BitVec 10) (rot : BitVec 4) (rd rs : Reg) :
    Laws.MatchesTableRow.Statement (.xorShort p c rot rd rs) := fmtAlu2Short_fixed ..

theorem Laws.MatchesTableRow.xorReg (p : Pred) (amt : BitVec 5) (shf : Shf) (rt rd rs : Reg) :
    Laws.MatchesTableRow.Statement (.xorReg p amt shf rt rd rs) := fmtAlu2Reg_fixed ..

theorem Laws.MatchesTableRow.xorLong (p : Pred) (rd rs : Reg) (imm : Word) :
    Laws.MatchesTableRow.Statement (.xorLong p rd rs imm) := fmtAluLong_fixed ..

theorem Laws.MatchesTableRow.movShort (p : Pred) (lo : BitVec 10) (rot : BitVec 4) (rd : Reg) (hi : BitVec 5) :
    Laws.MatchesTableRow.Statement (.movShort p lo rot rd hi) := fmtAlu1Short_fixed ..

theorem Laws.MatchesTableRow.movReg (p : Pred) (amt : BitVec 5) (shf : Shf) (rt rd : Reg) :
    Laws.MatchesTableRow.Statement (.movReg p amt shf rt rd) := fmtAlu1Reg_fixed ..

theorem Laws.MatchesTableRow.movRegsh (p : Pred) (shf : Shf) (rt rd rs : Reg) :
    Laws.MatchesTableRow.Statement (.movRegsh p shf rt rd rs) := fmtAlu1Regsh_fixed ..

theorem Laws.MatchesTableRow.movLong (p : Pred) (rd : Reg) (imm : Word) :
    Laws.MatchesTableRow.Statement (.movLong p rd imm) := fmtAluLong_fixed ..

theorem Laws.MatchesTableRow.mvnShort (p : Pred) (lo : BitVec 10) (rot : BitVec 4) (rd : Reg) (hi : BitVec 5) :
    Laws.MatchesTableRow.Statement (.mvnShort p lo rot rd hi) := fmtAlu1Short_fixed ..

theorem Laws.MatchesTableRow.mvnReg (p : Pred) (amt : BitVec 5) (shf : Shf) (rt rd : Reg) :
    Laws.MatchesTableRow.Statement (.mvnReg p amt shf rt rd) := fmtAlu1Reg_fixed ..

theorem Laws.MatchesTableRow.mvnRegsh (p : Pred) (shf : Shf) (rt rd rs : Reg) :
    Laws.MatchesTableRow.Statement (.mvnRegsh p shf rt rd rs) := fmtAlu1Regsh_fixed ..

theorem Laws.MatchesTableRow.mvnLong (p : Pred) (rd : Reg) (imm : Word) :
    Laws.MatchesTableRow.Statement (.mvnLong p rd imm) := fmtAluLong_fixed ..

theorem Laws.MatchesTableRow.sxbShort (p : Pred) (lo : BitVec 10) (rot : BitVec 4) (rd : Reg) (hi : BitVec 5) :
    Laws.MatchesTableRow.Statement (.sxbShort p lo rot rd hi) := fmtAlu1Short_fixed ..

theorem Laws.MatchesTableRow.sxbReg (p : Pred) (amt : BitVec 5) (shf : Shf) (rt rd : Reg) :
    Laws.MatchesTableRow.Statement (.sxbReg p amt shf rt rd) := fmtAlu1Reg_fixed ..

theorem Laws.MatchesTableRow.sxbRegsh (p : Pred) (shf : Shf) (rt rd rs : Reg) :
    Laws.MatchesTableRow.Statement (.sxbRegsh p shf rt rd rs) := fmtAlu1Regsh_fixed ..

theorem Laws.MatchesTableRow.sxbLong (p : Pred) (rd : Reg) (imm : Word) :
    Laws.MatchesTableRow.Statement (.sxbLong p rd imm) := fmtAluLong_fixed ..

theorem Laws.MatchesTableRow.sxhShort (p : Pred) (lo : BitVec 10) (rot : BitVec 4) (rd : Reg) (hi : BitVec 5) :
    Laws.MatchesTableRow.Statement (.sxhShort p lo rot rd hi) := fmtAlu1Short_fixed ..

theorem Laws.MatchesTableRow.sxhReg (p : Pred) (amt : BitVec 5) (shf : Shf) (rt rd : Reg) :
    Laws.MatchesTableRow.Statement (.sxhReg p amt shf rt rd) := fmtAlu1Reg_fixed ..

theorem Laws.MatchesTableRow.sxhRegsh (p : Pred) (shf : Shf) (rt rd rs : Reg) :
    Laws.MatchesTableRow.Statement (.sxhRegsh p shf rt rd rs) := fmtAlu1Regsh_fixed ..

theorem Laws.MatchesTableRow.sxhLong (p : Pred) (rd : Reg) (imm : Word) :
    Laws.MatchesTableRow.Statement (.sxhLong p rd imm) := fmtAluLong_fixed ..

theorem Laws.MatchesTableRow.cmpltuShort (p : Pred) (c : BitVec 10) (rot : BitVec 4) (pd : PredReg) (rs : Reg) :
    Laws.MatchesTableRow.Statement (.cmpltuShort p c rot pd rs) := fmtCmpShort_fixed ..

theorem Laws.MatchesTableRow.cmpltuReg (p : Pred) (amt : BitVec 5) (shf : Shf) (rt : Reg) (pd : PredReg) (rs : Reg) :
    Laws.MatchesTableRow.Statement (.cmpltuReg p amt shf rt pd rs) := fmtCmpReg_fixed ..

theorem Laws.MatchesTableRow.cmpltuLong (p : Pred) (pd : PredReg) (rs : Reg) (imm : Word) :
    Laws.MatchesTableRow.Statement (.cmpltuLong p pd rs imm) := fmtCmpLong_fixed ..

theorem Laws.MatchesTableRow.cmpleuShort (p : Pred) (c : BitVec 10) (rot : BitVec 4) (pd : PredReg) (rs : Reg) :
    Laws.MatchesTableRow.Statement (.cmpleuShort p c rot pd rs) := fmtCmpShort_fixed ..

theorem Laws.MatchesTableRow.cmpleuReg (p : Pred) (amt : BitVec 5) (shf : Shf) (rt : Reg) (pd : PredReg) (rs : Reg) :
    Laws.MatchesTableRow.Statement (.cmpleuReg p amt shf rt pd rs) := fmtCmpReg_fixed ..

theorem Laws.MatchesTableRow.cmpleuLong (p : Pred) (pd : PredReg) (rs : Reg) (imm : Word) :
    Laws.MatchesTableRow.Statement (.cmpleuLong p pd rs imm) := fmtCmpLong_fixed ..

theorem Laws.MatchesTableRow.cmpeqShort (p : Pred) (c : BitVec 10) (rot : BitVec 4) (pd : PredReg) (rs : Reg) :
    Laws.MatchesTableRow.Statement (.cmpeqShort p c rot pd rs) := fmtCmpShort_fixed ..

theorem Laws.MatchesTableRow.cmpeqReg (p : Pred) (amt : BitVec 5) (shf : Shf) (rt : Reg) (pd : PredReg) (rs : Reg) :
    Laws.MatchesTableRow.Statement (.cmpeqReg p amt shf rt pd rs) := fmtCmpReg_fixed ..

theorem Laws.MatchesTableRow.cmpeqLong (p : Pred) (pd : PredReg) (rs : Reg) (imm : Word) :
    Laws.MatchesTableRow.Statement (.cmpeqLong p pd rs imm) := fmtCmpLong_fixed ..

theorem Laws.MatchesTableRow.cmpltsShort (p : Pred) (c : BitVec 10) (rot : BitVec 4) (pd : PredReg) (rs : Reg) :
    Laws.MatchesTableRow.Statement (.cmpltsShort p c rot pd rs) := fmtCmpShort_fixed ..

theorem Laws.MatchesTableRow.cmpltsReg (p : Pred) (amt : BitVec 5) (shf : Shf) (rt : Reg) (pd : PredReg) (rs : Reg) :
    Laws.MatchesTableRow.Statement (.cmpltsReg p amt shf rt pd rs) := fmtCmpReg_fixed ..

theorem Laws.MatchesTableRow.cmpltsLong (p : Pred) (pd : PredReg) (rs : Reg) (imm : Word) :
    Laws.MatchesTableRow.Statement (.cmpltsLong p pd rs imm) := fmtCmpLong_fixed ..

theorem Laws.MatchesTableRow.cmplesShort (p : Pred) (c : BitVec 10) (rot : BitVec 4) (pd : PredReg) (rs : Reg) :
    Laws.MatchesTableRow.Statement (.cmplesShort p c rot pd rs) := fmtCmpShort_fixed ..

theorem Laws.MatchesTableRow.cmplesReg (p : Pred) (amt : BitVec 5) (shf : Shf) (rt : Reg) (pd : PredReg) (rs : Reg) :
    Laws.MatchesTableRow.Statement (.cmplesReg p amt shf rt pd rs) := fmtCmpReg_fixed ..

theorem Laws.MatchesTableRow.cmplesLong (p : Pred) (pd : PredReg) (rs : Reg) (imm : Word) :
    Laws.MatchesTableRow.Statement (.cmplesLong p pd rs imm) := fmtCmpLong_fixed ..

theorem Laws.MatchesTableRow.cmpbsShort (p : Pred) (c : BitVec 10) (rot : BitVec 4) (pd : PredReg) (rs : Reg) :
    Laws.MatchesTableRow.Statement (.cmpbsShort p c rot pd rs) := fmtCmpShort_fixed ..

theorem Laws.MatchesTableRow.cmpbsReg (p : Pred) (amt : BitVec 5) (shf : Shf) (rt : Reg) (pd : PredReg) (rs : Reg) :
    Laws.MatchesTableRow.Statement (.cmpbsReg p amt shf rt pd rs) := fmtCmpReg_fixed ..

theorem Laws.MatchesTableRow.cmpbsLong (p : Pred) (pd : PredReg) (rs : Reg) (imm : Word) :
    Laws.MatchesTableRow.Statement (.cmpbsLong p pd rs imm) := fmtCmpLong_fixed ..

theorem Laws.MatchesTableRow.cmpbcShort (p : Pred) (c : BitVec 10) (rot : BitVec 4) (pd : PredReg) (rs : Reg) :
    Laws.MatchesTableRow.Statement (.cmpbcShort p c rot pd rs) := fmtCmpShort_fixed ..

theorem Laws.MatchesTableRow.cmpbcReg (p : Pred) (amt : BitVec 5) (shf : Shf) (rt : Reg) (pd : PredReg) (rs : Reg) :
    Laws.MatchesTableRow.Statement (.cmpbcReg p amt shf rt pd rs) := fmtCmpReg_fixed ..

theorem Laws.MatchesTableRow.cmpbcLong (p : Pred) (pd : PredReg) (rs : Reg) (imm : Word) :
    Laws.MatchesTableRow.Statement (.cmpbcLong p pd rs imm) := fmtCmpLong_fixed ..

theorem Laws.MatchesTableRow.lb (p : Pred) (off : BitVec 12) (rd rs : Reg) :
    Laws.MatchesTableRow.Statement (.lb p off rd rs) := fmtLoad_fixed ..

theorem Laws.MatchesTableRow.lh (p : Pred) (off : BitVec 12) (rd rs : Reg) :
    Laws.MatchesTableRow.Statement (.lh p off rd rs) := fmtLoad_fixed ..

theorem Laws.MatchesTableRow.lw (p : Pred) (off : BitVec 12) (rd rs : Reg) :
    Laws.MatchesTableRow.Statement (.lw p off rd rs) := fmtLoad_fixed ..

theorem Laws.MatchesTableRow.ll (p : Pred) (off : BitVec 12) (rd rs : Reg) :
    Laws.MatchesTableRow.Statement (.ll p off rd rs) := fmtLoad_fixed ..

theorem Laws.MatchesTableRow.sb (p : Pred) (off : BitVec 11) (m : Bool) (rt rs : Reg) :
    Laws.MatchesTableRow.Statement (.sb p off m rt rs) := fmtStore_fixed ..

theorem Laws.MatchesTableRow.sh (p : Pred) (off : BitVec 11) (m : Bool) (rt rs : Reg) :
    Laws.MatchesTableRow.Statement (.sh p off m rt rs) := fmtStore_fixed ..

theorem Laws.MatchesTableRow.sw (p : Pred) (off : BitVec 11) (m : Bool) (rt rs : Reg) :
    Laws.MatchesTableRow.Statement (.sw p off m rt rs) := fmtStore_fixed ..

theorem Laws.MatchesTableRow.sc (p : Pred) (off : BitVec 11) (m : Bool) (rt rs : Reg) :
    Laws.MatchesTableRow.Statement (.sc p off m rt rs) := fmtStore_fixed ..

theorem Laws.MatchesTableRow.bImm (p : Pred) (off : BitVec 25) :
    Laws.MatchesTableRow.Statement (.bImm p off) := fmtBrImm_fixed ..

theorem Laws.MatchesTableRow.bReg (p : Pred) (off : BitVec 20) (rs : Reg) :
    Laws.MatchesTableRow.Statement (.bReg p off rs) := fmtBrReg_fixed ..

theorem Laws.MatchesTableRow.blImm (p : Pred) (off : BitVec 25) :
    Laws.MatchesTableRow.Statement (.blImm p off) := fmtBrImm_fixed ..

theorem Laws.MatchesTableRow.blReg (p : Pred) (off : BitVec 20) (rs : Reg) :
    Laws.MatchesTableRow.Statement (.blReg p off rs) := fmtBrReg_fixed ..

theorem Laws.MatchesTableRow.brk (p : Pred) :
    Laws.MatchesTableRow.Statement (.brk p) := fmtCtrl_fixed ..

theorem Laws.MatchesTableRow.syscall (p : Pred) :
    Laws.MatchesTableRow.Statement (.syscall p) := fmtCtrl_fixed ..

theorem Laws.MatchesTableRow.fence (p : Pred) :
    Laws.MatchesTableRow.Statement (.fence p) := fmtCtrl_fixed ..

theorem Laws.MatchesTableRow.eret (p : Pred) :
    Laws.MatchesTableRow.Statement (.eret p) := fmtCtrl_fixed ..

theorem Laws.MatchesTableRow.flush (p : Pred) (c : Bool) (ty : FlushType) (rs : Reg) :
    Laws.MatchesTableRow.Statement (.flush p c ty rs) := fmtCtrl_fixed ..

theorem Laws.MatchesTableRow.mfc (p : Pred) (rd : Reg) (cprs : CprNum) :
    Laws.MatchesTableRow.Statement (.mfc p rd cprs) := fmtCtrl_fixed ..

theorem Laws.MatchesTableRow.mtc (p : Pred) (cprd : CprNum) (rs : Reg) :
    Laws.MatchesTableRow.Statement (.mtc p cprd rs) := fmtCtrl_fixed ..

theorem Laws.MatchesTableRow.mult (p : Pred) (sg : Bool) (rt rd rs : Reg) :
    Laws.MatchesTableRow.Statement (.mult p sg rt rd rs) := fmtCtrl_fixed ..

theorem Laws.MatchesTableRow.div (p : Pred) (sg : Bool) (rt : Reg) (wide : Bool) (rd rs : Reg) :
    Laws.MatchesTableRow.Statement (.div p sg rt wide rd rs) := fmtCtrl_fixed ..

theorem Laws.MatchesTableRow.mfhi (p : Pred) (rd : Reg) :
    Laws.MatchesTableRow.Statement (.mfhi p rd) := fmtCtrl_fixed ..

theorem Laws.MatchesTableRow.mthi (p : Pred) (rs : Reg) :
    Laws.MatchesTableRow.Statement (.mthi p rs) := fmtCtrl_fixed ..

end Sys2Proof
end

