-- ==== Sys2Proof/Laws/Step.lean ====
section
/-! SUPPORT. What one step can do, said once. -/

namespace Sys2Proof.Machine

/-- A step goes on exactly where the core does, and the environment acts after it. -/
theorem step_next {s t : State} (h : step s = .next t) : ∃ u, coreStep s = .next u ∧ t = u.betweenSteps := by
  unfold step closeStep at h
  split at h
  · rename_i u hu
    exact ⟨u, hu, by cases h; rfl⟩
  · cases h
  · cases h

/-- The core's next state becomes the step's. -/
theorem step_of_coreStep {s u : State} (h : coreStep s = .next u) : step s = .next u.betweenSteps := by
  simp [step, closeStep, h]

/-- Everything the core can do in a step: take an interrupt, take the fetch's exception, or run the fetched packet. -/
theorem coreStep_cases (s : State) :
    (s.interrupted = true ∧ coreStep s = .next (trapNoLane codeInterrupt s)) ∨
    (∃ f, s.interrupted = false ∧ (fetchTranslation s).result = .error f ∧
      coreStep s = .next (trapNoLane (fetchFaultCode f) (afterFetch s))) ∨
    (∃ pa, s.interrupted = false ∧ (fetchTranslation s).result = .ok pa ∧
      coreStep s = runPacket (fetchedPacket s pa) (afterFetch s)) := by
  unfold coreStep
  cases hi : s.interrupted with
  | true => exact .inl ⟨rfl, rfl⟩
  | false =>
    cases hf : (fetchTranslation s).result with
    | error f => exact .inr (.inl ⟨f, rfl, rfl, by simp⟩)
    | ok pa => exact .inr (.inr ⟨pa, rfl, rfl, by simp⟩)

end Sys2Proof.Machine
end

