-- ==== Sys2Proof/Tests/Slice0.lean ====
section
/-! SUPPORT. The model's own tests: the words of every instruction written out from the encodings of 30_encoding.md, one
step of most instructions and packets with the values of 95_test_vectors.md (the vector's number ends the name), the
well-formedness smoke tests, and a witness for every statement that has hypotheses. -/

namespace Sys2Proof.Tests

open Sys2Proof.Machine

/-! Helpers. -/

/-- A state with pc at 0x1000, where 95_test_vectors.md places its single packets. -/
def base : State := { State.reset with pc := 0x1000#32 }

/-- The filler of 30_encoding.md R109. -/
def filler : Word := 0xE0000000#32

/-- Registers set. -/
def withRegs (s : State) (rs : List (Reg × Word)) : State := rs.foldl (fun s r => s.writeReg r.1 r.2) s

/-- Words of RAM set from outside the core. -/
def withMem (s : State) (ws : List (Word × Word)) : State := ws.foldl (fun s r => s.placeWord r.1 r.2) s

/-- A packet placed at a physical address. -/
def withPacketAt (s : State) (pa w0 w1 w2 w3 : Word) : State :=
  withMem s [(pa, w0), (pa + 4#32, w1), (pa + 8#32, w2), (pa + 12#32, w3)]

/-- A packet placed at pc. -/
def withPacket (s : State) (w0 w1 w2 w3 : Word) : State := withPacketAt s s.pc w0 w1 w2 w3

/-- Something read from the next state, if there is one. -/
def after {α : Type} (o : Host.Outcome State Fault Refusal) (f : State → α) : Option α :=
  match o with
  | .next t => some (f t)
  | .fault _ => none
  | .refused _ => none

/-- The refusal, if there is one. -/
def refusal (o : Host.Outcome State Fault Refusal) : Option Refusal :=
  match o with
  | .next _ => none
  | .fault _ => none
  | .refused r => some r

/-- An outcome after which a test holds is a next state for which it holds. -/
theorem next_of_after {o : Host.Outcome State Fault Refusal} {f : State → Bool} (h : after o f = some true) :
    ∃ t, o = .next t ∧ f t = true := by
  unfold after at h
  split at h
  · exact ⟨_, rfl, by simpa using h⟩
  · cases h
  · cases h

/-- The predicate of an unconditional instruction. -/
def on : Pred := ⟨3, false⟩

/-- The tables of program 6 of 95_test_vectors.md, with PG = 1 and EHA = 0x100. -/
def paged : State :=
  withMem { State.reset with ptb := 0x10000#32, eha := 0x100#32, pflags := 2#32 }
    [(0x10000#32, 0x00011007#32), (0x10004#32, 0x00012007#32), (0x11000#32, 0x00000003#32),
     (0x12000#32, 0x00005007#32), (0x12004#32, 0x00006005#32), (0x6000#32, 0x600D600D#32)]

/-- CMPBC_READING is the prose (42_compare.md R156). -/
def allClear : State := { base with params := { Params.default with cmpbcReading := .allClear } }

/-- DUPDEST_DYNAMIC is false (00_scope.md R5). -/
def staticDup : State := { base with params := { Params.default with dupDestDynamic := false } }

/-- MEM_LANE_ORDER has a value (00_scope.md R5). -/
def ordered (o : LaneOrder) : State := { base with params := { Params.default with memLaneOrder := some o } }

/-- M at bit 2 and IF at bit 3 of EPC (10_state.md R23). -/
def otherEpc : Params := { Params.default with epcMBit := 2, epcIfBit := 3, epcBitsDiffer := by decide }

/-! Well-formedness: each check refuses an ill-formed term. -/

theorem test_wf_sb_m : (Instr.sb on 0#11 true 1 2).wf = false := by decide
theorem test_wf_sh_m : (Instr.sh on 0#11 true 1 2).wf = false := by decide
theorem test_wf_sw_m : (Instr.sw on 0#11 true 1 2).wf = false := by decide
theorem test_wf_sc_m : (Instr.sc on 0#11 true 1 2).wf = false := by decide
theorem test_wf_flush_c : (Instr.flush on true .data 1).wf = false := by decide
theorem test_wf_mfc_10 : (Instr.mfc on 1 10).wf = false := by decide
theorem test_wf_mfc_15 : (Instr.mfc on 1 15).wf = false := by decide
theorem test_wf_mtc_20 : (Instr.mtc on 20 1).wf = false := by decide
theorem test_wf_mtc_31 : (Instr.mtc on 31 1).wf = false := by decide
theorem test_wf_good : (Instr.mtc on 19 1).wf = true := by decide

/-! Decoding. Each word is written out from the row's fixed bits and fields (30_encoding.md R82 to R102), one field or
fixed group between underscores, with a different value in each field. -/

theorem test_decode_addShort :
    decode 0b000_0_1010100101_1001_0000_10101_01011#32 0x9E3779B9#32 =
      .ok (.addShort ⟨0, false⟩ 0x2A5#10 0x9#4 21 11) := by decide
theorem test_decode_addReg :
    decode 0b010_101_10011_01_11010_0000_10101_01011#32 0x9E3779B9#32 =
      .ok (.addReg ⟨1, false⟩ 0x13#5 .lsr 26 21 11) := by decide
theorem test_decode_addLong :
    decode 0b100_1000000000000000000_10101_01011#32 0x9E3779B9#32 =
      .ok (.addLong ⟨2, false⟩ 21 11 0x9E3779B9#32) := by decide
theorem test_decode_andShort :
    decode 0b110_0_1010100101_1001_0001_10101_01011#32 0x9E3779B9#32 =
      .ok (.andShort ⟨3, false⟩ 0x2A5#10 0x9#4 21 11) := by decide
theorem test_decode_andReg :
    decode 0b001_101_10011_00_11010_0001_10101_01011#32 0x9E3779B9#32 =
      .ok (.andReg ⟨0, true⟩ 0x13#5 .lsl 26 21 11) := by decide
theorem test_decode_andLong :
    decode 0b011_1000000000000000001_10101_01011#32 0x9E3779B9#32 =
      .ok (.andLong ⟨1, true⟩ 21 11 0x9E3779B9#32) := by decide
theorem test_decode_norShort :
    decode 0b101_0_1010100101_1001_0010_10101_01011#32 0x9E3779B9#32 =
      .ok (.norShort ⟨2, true⟩ 0x2A5#10 0x9#4 21 11) := by decide
theorem test_decode_norReg :
    decode 0b111_101_10011_11_11010_0010_10101_01011#32 0x9E3779B9#32 =
      .ok (.norReg ⟨3, true⟩ 0x13#5 .ror 26 21 11) := by decide
theorem test_decode_norLong :
    decode 0b000_1000000000000000010_10101_01011#32 0x9E3779B9#32 =
      .ok (.norLong ⟨0, false⟩ 21 11 0x9E3779B9#32) := by decide
theorem test_decode_orShort :
    decode 0b010_0_1010100101_1001_0011_10101_01011#32 0x9E3779B9#32 =
      .ok (.orShort ⟨1, false⟩ 0x2A5#10 0x9#4 21 11) := by decide
theorem test_decode_orReg :
    decode 0b100_101_10011_10_11010_0011_10101_01011#32 0x9E3779B9#32 =
      .ok (.orReg ⟨2, false⟩ 0x13#5 .asr 26 21 11) := by decide
theorem test_decode_orLong :
    decode 0b110_1000000000000000011_10101_01011#32 0x9E3779B9#32 =
      .ok (.orLong ⟨3, false⟩ 21 11 0x9E3779B9#32) := by decide
theorem test_decode_subShort :
    decode 0b001_0_1010100101_1001_0100_10101_01011#32 0x9E3779B9#32 =
      .ok (.subShort ⟨0, true⟩ 0x2A5#10 0x9#4 21 11) := by decide
theorem test_decode_subReg :
    decode 0b011_101_10011_01_11010_0100_10101_01011#32 0x9E3779B9#32 =
      .ok (.subReg ⟨1, true⟩ 0x13#5 .lsr 26 21 11) := by decide
theorem test_decode_subLong :
    decode 0b101_1000000000000000100_10101_01011#32 0x9E3779B9#32 =
      .ok (.subLong ⟨2, true⟩ 21 11 0x9E3779B9#32) := by decide
theorem test_decode_rsbShort :
    decode 0b111_0_1010100101_1001_0101_10101_01011#32 0x9E3779B9#32 =
      .ok (.rsbShort ⟨3, true⟩ 0x2A5#10 0x9#4 21 11) := by decide
theorem test_decode_rsbReg :
    decode 0b000_101_10011_00_11010_0101_10101_01011#32 0x9E3779B9#32 =
      .ok (.rsbReg ⟨0, false⟩ 0x13#5 .lsl 26 21 11) := by decide
theorem test_decode_rsbLong :
    decode 0b010_1000000000000000101_10101_01011#32 0x9E3779B9#32 =
      .ok (.rsbLong ⟨1, false⟩ 21 11 0x9E3779B9#32) := by decide
theorem test_decode_xorShort :
    decode 0b100_0_1010100101_1001_0110_10101_01011#32 0x9E3779B9#32 =
      .ok (.xorShort ⟨2, false⟩ 0x2A5#10 0x9#4 21 11) := by decide
theorem test_decode_xorReg :
    decode 0b110_101_10011_11_11010_0110_10101_01011#32 0x9E3779B9#32 =
      .ok (.xorReg ⟨3, false⟩ 0x13#5 .ror 26 21 11) := by decide
theorem test_decode_xorLong :
    decode 0b001_1000000000000000110_10101_01011#32 0x9E3779B9#32 =
      .ok (.xorLong ⟨0, true⟩ 21 11 0x9E3779B9#32) := by decide
theorem test_decode_movShort :
    decode 0b011_0_0101011010_1001_1000_10101_10110#32 0x9E3779B9#32 =
      .ok (.movShort ⟨1, true⟩ 0x15A#10 0x9#4 21 0x16#5) := by decide
theorem test_decode_movReg :
    decode 0b101_101_10011_10_11010_1000_10101_00000#32 0x9E3779B9#32 =
      .ok (.movReg ⟨2, true⟩ 0x13#5 .asr 26 21) := by decide
theorem test_decode_movRegsh :
    decode 0b111_10000001_11_11010_1000_10101_01011#32 0x9E3779B9#32 =
      .ok (.movRegsh ⟨3, true⟩ .ror 26 21 11) := by decide
theorem test_decode_movLong :
    decode 0b000_1000000000000001000_10101_00000#32 0x9E3779B9#32 =
      .ok (.movLong ⟨0, false⟩ 21 0x9E3779B9#32) := by decide
theorem test_decode_mvnShort :
    decode 0b010_0_0101011010_1001_1001_10101_10110#32 0x9E3779B9#32 =
      .ok (.mvnShort ⟨1, false⟩ 0x15A#10 0x9#4 21 0x16#5) := by decide
theorem test_decode_mvnReg :
    decode 0b100_101_10011_10_11010_1001_10101_00000#32 0x9E3779B9#32 =
      .ok (.mvnReg ⟨2, false⟩ 0x13#5 .asr 26 21) := by decide
theorem test_decode_mvnRegsh :
    decode 0b110_10000001_11_11010_1001_10101_01011#32 0x9E3779B9#32 =
      .ok (.mvnRegsh ⟨3, false⟩ .ror 26 21 11) := by decide
theorem test_decode_mvnLong :
    decode 0b001_1000000000000001001_10101_00000#32 0x9E3779B9#32 =
      .ok (.mvnLong ⟨0, true⟩ 21 0x9E3779B9#32) := by decide
theorem test_decode_sxbShort :
    decode 0b011_0_0101011010_1001_1010_10101_10110#32 0x9E3779B9#32 =
      .ok (.sxbShort ⟨1, true⟩ 0x15A#10 0x9#4 21 0x16#5) := by decide
theorem test_decode_sxbReg :
    decode 0b101_101_10011_10_11010_1010_10101_00000#32 0x9E3779B9#32 =
      .ok (.sxbReg ⟨2, true⟩ 0x13#5 .asr 26 21) := by decide
theorem test_decode_sxbRegsh :
    decode 0b111_10000001_11_11010_1010_10101_01011#32 0x9E3779B9#32 =
      .ok (.sxbRegsh ⟨3, true⟩ .ror 26 21 11) := by decide
theorem test_decode_sxbLong :
    decode 0b000_1000000000000001010_10101_00000#32 0x9E3779B9#32 =
      .ok (.sxbLong ⟨0, false⟩ 21 0x9E3779B9#32) := by decide
theorem test_decode_sxhShort :
    decode 0b010_0_0101011010_1001_1011_10101_10110#32 0x9E3779B9#32 =
      .ok (.sxhShort ⟨1, false⟩ 0x15A#10 0x9#4 21 0x16#5) := by decide
theorem test_decode_sxhReg :
    decode 0b100_101_10011_10_11010_1011_10101_00000#32 0x9E3779B9#32 =
      .ok (.sxhReg ⟨2, false⟩ 0x13#5 .asr 26 21) := by decide
theorem test_decode_sxhRegsh :
    decode 0b110_10000001_11_11010_1011_10101_01011#32 0x9E3779B9#32 =
      .ok (.sxhRegsh ⟨3, false⟩ .ror 26 21 11) := by decide
theorem test_decode_sxhLong :
    decode 0b001_1000000000000001011_10101_00000#32 0x9E3779B9#32 =
      .ok (.sxhLong ⟨0, true⟩ 21 0x9E3779B9#32) := by decide
theorem test_decode_cmpltuShort :
    decode 0b011_0_1010100101_1001_0111000_10_01011#32 0x9E3779B9#32 =
      .ok (.cmpltuShort ⟨1, true⟩ 0x2A5#10 0x9#4 2 11) := by decide
theorem test_decode_cmpltuReg :
    decode 0b101_101_10011_10_11010_0111000_10_01011#32 0x9E3779B9#32 =
      .ok (.cmpltuReg ⟨2, true⟩ 0x13#5 .asr 26 2 11) := by decide
theorem test_decode_cmpltuLong :
    decode 0b111_1000000000000000111000_10_01011#32 0x9E3779B9#32 =
      .ok (.cmpltuLong ⟨3, true⟩ 2 11 0x9E3779B9#32) := by decide
theorem test_decode_cmpleuShort :
    decode 0b000_0_1010100101_1001_0111001_10_01011#32 0x9E3779B9#32 =
      .ok (.cmpleuShort ⟨0, false⟩ 0x2A5#10 0x9#4 2 11) := by decide
theorem test_decode_cmpleuReg :
    decode 0b010_101_10011_01_11010_0111001_10_01011#32 0x9E3779B9#32 =
      .ok (.cmpleuReg ⟨1, false⟩ 0x13#5 .lsr 26 2 11) := by decide
theorem test_decode_cmpleuLong :
    decode 0b100_1000000000000000111001_10_01011#32 0x9E3779B9#32 =
      .ok (.cmpleuLong ⟨2, false⟩ 2 11 0x9E3779B9#32) := by decide
theorem test_decode_cmpeqShort :
    decode 0b110_0_1010100101_1001_0111010_10_01011#32 0x9E3779B9#32 =
      .ok (.cmpeqShort ⟨3, false⟩ 0x2A5#10 0x9#4 2 11) := by decide
theorem test_decode_cmpeqReg :
    decode 0b001_101_10011_00_11010_0111010_10_01011#32 0x9E3779B9#32 =
      .ok (.cmpeqReg ⟨0, true⟩ 0x13#5 .lsl 26 2 11) := by decide
theorem test_decode_cmpeqLong :
    decode 0b011_1000000000000000111010_10_01011#32 0x9E3779B9#32 =
      .ok (.cmpeqLong ⟨1, true⟩ 2 11 0x9E3779B9#32) := by decide
theorem test_decode_cmpltsShort :
    decode 0b101_0_1010100101_1001_0111100_10_01011#32 0x9E3779B9#32 =
      .ok (.cmpltsShort ⟨2, true⟩ 0x2A5#10 0x9#4 2 11) := by decide
theorem test_decode_cmpltsReg :
    decode 0b111_101_10011_11_11010_0111100_10_01011#32 0x9E3779B9#32 =
      .ok (.cmpltsReg ⟨3, true⟩ 0x13#5 .ror 26 2 11) := by decide
theorem test_decode_cmpltsLong :
    decode 0b000_1000000000000000111100_10_01011#32 0x9E3779B9#32 =
      .ok (.cmpltsLong ⟨0, false⟩ 2 11 0x9E3779B9#32) := by decide
theorem test_decode_cmplesShort :
    decode 0b010_0_1010100101_1001_0111101_10_01011#32 0x9E3779B9#32 =
      .ok (.cmplesShort ⟨1, false⟩ 0x2A5#10 0x9#4 2 11) := by decide
theorem test_decode_cmplesReg :
    decode 0b100_101_10011_10_11010_0111101_10_01011#32 0x9E3779B9#32 =
      .ok (.cmplesReg ⟨2, false⟩ 0x13#5 .asr 26 2 11) := by decide
theorem test_decode_cmplesLong :
    decode 0b110_1000000000000000111101_10_01011#32 0x9E3779B9#32 =
      .ok (.cmplesLong ⟨3, false⟩ 2 11 0x9E3779B9#32) := by decide
theorem test_decode_cmpbsShort :
    decode 0b001_0_1010100101_1001_0111110_10_01011#32 0x9E3779B9#32 =
      .ok (.cmpbsShort ⟨0, true⟩ 0x2A5#10 0x9#4 2 11) := by decide
theorem test_decode_cmpbsReg :
    decode 0b011_101_10011_01_11010_0111110_10_01011#32 0x9E3779B9#32 =
      .ok (.cmpbsReg ⟨1, true⟩ 0x13#5 .lsr 26 2 11) := by decide
theorem test_decode_cmpbsLong :
    decode 0b101_1000000000000000111110_10_01011#32 0x9E3779B9#32 =
      .ok (.cmpbsLong ⟨2, true⟩ 2 11 0x9E3779B9#32) := by decide
theorem test_decode_cmpbcShort :
    decode 0b111_0_1010100101_1001_0111111_10_01011#32 0x9E3779B9#32 =
      .ok (.cmpbcShort ⟨3, true⟩ 0x2A5#10 0x9#4 2 11) := by decide
theorem test_decode_cmpbcReg :
    decode 0b000_101_10011_00_11010_0111111_10_01011#32 0x9E3779B9#32 =
      .ok (.cmpbcReg ⟨0, false⟩ 0x13#5 .lsl 26 2 11) := by decide
theorem test_decode_cmpbcLong :
    decode 0b010_1000000000000000111111_10_01011#32 0x9E3779B9#32 =
      .ok (.cmpbcLong ⟨1, false⟩ 2 11 0x9E3779B9#32) := by decide
theorem test_decode_lb :
    decode 0b100_1001_101001011100_000_10101_01011#32 0x9E3779B9#32 =
      .ok (.lb ⟨2, false⟩ 0xA5C#12 21 11) := by decide
theorem test_decode_lh :
    decode 0b110_1001_101001011100_001_10101_01011#32 0x9E3779B9#32 =
      .ok (.lh ⟨3, false⟩ 0xA5C#12 21 11) := by decide
theorem test_decode_lw :
    decode 0b001_1001_101001011100_010_10101_01011#32 0x9E3779B9#32 =
      .ok (.lw ⟨0, true⟩ 0xA5C#12 21 11) := by decide
theorem test_decode_ll :
    decode 0b011_1001_101001011100_011_10101_01011#32 0x9E3779B9#32 =
      .ok (.ll ⟨1, true⟩ 0xA5C#12 21 11) := by decide
theorem test_decode_sb :
    decode 0b101_1001_101101_11010_0_100_10110_01011#32 0x9E3779B9#32 =
      .ok (.sb ⟨2, true⟩ 0x5B6#11 false 26 11) := by decide
theorem test_decode_sh :
    decode 0b111_1001_101101_11010_0_101_10110_01011#32 0x9E3779B9#32 =
      .ok (.sh ⟨3, true⟩ 0x5B6#11 false 26 11) := by decide
theorem test_decode_sw :
    decode 0b000_1001_101101_11010_0_110_10110_01011#32 0x9E3779B9#32 =
      .ok (.sw ⟨0, false⟩ 0x5B6#11 false 26 11) := by decide
theorem test_decode_sc :
    decode 0b010_1001_101101_11010_0_111_10110_01011#32 0x9E3779B9#32 =
      .ok (.sc ⟨1, false⟩ 0x5B6#11 false 26 11) := by decide
theorem test_decode_bImm :
    decode 0b100_1100_1001000111010010111000111#32 0x9E3779B9#32 =
      .ok (.bImm ⟨2, false⟩ 0x123A5C7#25) := by decide
theorem test_decode_bReg :
    decode 0b110_1110_10100101110000110111_01011#32 0x9E3779B9#32 =
      .ok (.bReg ⟨3, false⟩ 0xA5C37#20 11) := by decide
theorem test_decode_blImm :
    decode 0b001_1101_1001000111010010111000111#32 0x9E3779B9#32 =
      .ok (.blImm ⟨0, true⟩ 0x123A5C7#25) := by decide
theorem test_decode_blReg :
    decode 0b011_1111_10100101110000110111_01011#32 0x9E3779B9#32 =
      .ok (.blReg ⟨1, true⟩ 0xA5C37#20 11) := by decide
theorem test_decode_brk :
    decode 0b101_100010001_00000000000000000000#32 0x9E3779B9#32 =
      .ok (.brk ⟨2, true⟩) := by decide
theorem test_decode_syscall :
    decode 0b111_100010010_00000000000000000000#32 0x9E3779B9#32 =
      .ok (.syscall ⟨3, true⟩) := by decide
theorem test_decode_fence :
    decode 0b000_100010011_00000000000000000000#32 0x9E3779B9#32 =
      .ok (.fence ⟨0, false⟩) := by decide
theorem test_decode_eret :
    decode 0b010_100010100_00000000000000000000#32 0x9E3779B9#32 =
      .ok (.eret ⟨1, false⟩) := by decide
theorem test_decode_flush :
    decode 0b100_100010101_0_0000000_10_00000_01011#32 0x9E3779B9#32 =
      .ok (.flush ⟨2, false⟩ false .dtlb 11) := by decide
theorem test_decode_mfc :
    decode 0b110_100010110_0000000000_10101_10001#32 0x9E3779B9#32 =
      .ok (.mfc ⟨3, false⟩ 21 17) := by decide
theorem test_decode_mtc :
    decode 0b001_100010111_0000000000_00110_01011#32 0x9E3779B9#32 =
      .ok (.mtc ⟨0, true⟩ 6 11) := by decide
theorem test_decode_mult :
    decode 0b011_100011000_1_11010_0000_10101_01011#32 0x9E3779B9#32 =
      .ok (.mult ⟨1, true⟩ true 26 21 11) := by decide
theorem test_decode_div :
    decode 0b101_100011001_1_11010_1_000_10101_01011#32 0x9E3779B9#32 =
      .ok (.div ⟨2, true⟩ true 26 true 21 11) := by decide
theorem test_decode_mfhi :
    decode 0b111_100011010_0000000000_10101_00000#32 0x9E3779B9#32 =
      .ok (.mfhi ⟨3, true⟩ 21) := by decide
theorem test_decode_mthi :
    decode 0b000_100011011_000000000000000_01011#32 0x9E3779B9#32 =
      .ok (.mthi ⟨0, false⟩ 11) := by decide

/-! The undefined encodings of 30_encoding.md R103, one word of each shape. -/

theorem test_reject_reserved_opcode : decode 0xC0003000#32 0#32 = .error .reservedAluOpcode := by decide
theorem test_reject_ctype : decode 0xC0001D81#32 0#32 = .error .undefinedCtype := by decide
theorem test_reject_regsh : decode 0xD0208061#32 0#32 = .error .undefinedRegshOpcode := by decide
theorem test_reject_long_filler : decode 0xD0004061#32 0#32 = .error .nonzeroLongFiller := by decide
theorem test_reject_group : decode 0xD0400000#32 0#32 = .error .undefinedGroup := by decide
theorem test_reject_control : decode 0xD1000000#32 0#32 = .error .undefinedControlOpcode := by decide

/-! The bytes of an opcode-table word, as the host numbers its bits: the operand word of a long form that the table does
not give is 0. -/

theorem test_table_word_short : decodeTableWord 32 0xC0140061 = some (.addShort on 5#10 0#4 3 1) := by decide
theorem test_table_word_long : decodeTableWord 32 0xD0000CA6 = some (.orLong on 5 6 0#32) := by decide

/-- The word placed where the next step fetches is what the step runs. -/
theorem test_place_runs :
    after (step (State.reset.withFetchWord 32 0xC0140061)) (fun t => (t.readReg 3, t.pc)) = some (5#32, 16#32) := by
  decide

/-! One step of single instructions (95_test_vectors.md section 2). -/

theorem test_step_addReg_A1 :
    after (step (withPacket (withRegs base [(1,4294967295#32), (2,1#32)]) 0xD4008061#32 filler filler filler))
      (fun t => t.pc == 4112#32 && t.readReg 3 == 0#32) = some true := by decide
theorem test_step_addShort_A3 :
    after (step (withPacket (withRegs base [(1,16777216#32)]) 0xC3FD0061#32 filler filler filler))
      (fun t => t.pc == 4112#32 && t.readReg 3 == 0#32) = some true := by decide
theorem test_step_andReg_A7 :
    after (step (withPacket (withRegs base [(1,4042325760#32), (2,267448560#32)]) 0xD4008461#32 filler filler filler))
      (fun t => t.pc == 4112#32 && t.readReg 3 == 15790080#32) = some true := by decide
theorem test_step_andShort_A8 :
    after (step (withPacket (withRegs base [(1,305419896#32)]) 0xC3FC0461#32 filler filler filler))
      (fun t => t.pc == 4112#32 && t.readReg 3 == 120#32) = some true := by decide
theorem test_step_norReg_A9 :
    after (step (withPacket (withRegs base [(1,4042325760#32), (2,267448560#32)]) 0xD4008861#32 filler filler filler))
      (fun t => t.pc == 4112#32 && t.readReg 3 == 983055#32) = some true := by decide
theorem test_step_norShort_A10 :
    after (step (withPacket (withRegs base [(1,0#32)]) 0xC0000861#32 filler filler filler))
      (fun t => t.pc == 4112#32 && t.readReg 3 == 4294967295#32) = some true := by decide
theorem test_step_orReg_A11 :
    after (step (withPacket (withRegs base [(1,4042325760#32), (2,267448560#32)]) 0xD4008C61#32 filler filler filler))
      (fun t => t.pc == 4112#32 && t.readReg 3 == 4293984240#32) = some true := by decide
theorem test_step_subReg_A12 :
    after (step (withPacket (withRegs base [(1,0#32), (2,1#32)]) 0xD4009061#32 filler filler filler))
      (fun t => t.pc == 4112#32 && t.readReg 3 == 4294967295#32) = some true := by decide
theorem test_step_subShort_A14 :
    after (step (withPacket (withRegs base [(1,5#32)]) 0xC0041061#32 filler filler filler))
      (fun t => t.pc == 4112#32 && t.readReg 3 == 4#32) = some true := by decide
theorem test_step_rsbReg_A15 :
    after (step (withPacket (withRegs base [(1,3#32), (2,10#32)]) 0xD4009461#32 filler filler filler))
      (fun t => t.pc == 4112#32 && t.readReg 3 == 7#32) = some true := by decide
theorem test_step_rsbShort_A16 :
    after (step (withPacket (withRegs base [(1,2147483648#32)]) 0xC0001461#32 filler filler filler))
      (fun t => t.pc == 4112#32 && t.readReg 3 == 2147483648#32) = some true := by decide
theorem test_step_xorReg_A18 :
    after (step (withPacket (withRegs base [(1,4042325760#32), (2,267448560#32)]) 0xD4009861#32 filler filler filler))
      (fun t => t.pc == 4112#32 && t.readReg 3 == 4278194160#32) = some true := by decide
theorem test_step_movShort_A20 :
    after (step (withPacket base 0xCFFC207F#32 filler filler filler))
      (fun t => t.pc == 4112#32 && t.readReg 3 == 32767#32) = some true := by decide
theorem test_step_movReg_A24 :
    after (step (withPacket (withRegs base [(2,3405705229#32)]) 0xD400A060#32 filler filler filler))
      (fun t => t.pc == 4112#32 && t.readReg 3 == 3405705229#32) = some true := by decide
theorem test_step_mvnShort_A25 :
    after (step (withPacket base 0xC0002460#32 filler filler filler))
      (fun t => t.pc == 4112#32 && t.readReg 3 == 4294967295#32) = some true := by decide
theorem test_step_mvnReg_A26 :
    after (step (withPacket (withRegs base [(2,65535#32)]) 0xD400A460#32 filler filler filler))
      (fun t => t.pc == 4112#32 && t.readReg 3 == 4294901760#32) = some true := by decide
theorem test_step_sxbReg_A27 :
    after (step (withPacket (withRegs base [(2,128#32)]) 0xD400A860#32 filler filler filler))
      (fun t => t.pc == 4112#32 && t.readReg 3 == 4294967168#32) = some true := by decide
theorem test_step_sxbShort_A29 :
    after (step (withPacket base 0xC3FC2860#32 filler filler filler))
      (fun t => t.pc == 4112#32 && t.readReg 3 == 4294967295#32) = some true := by decide
theorem test_step_sxhReg_A30 :
    after (step (withPacket (withRegs base [(2,32768#32)]) 0xD400AC60#32 filler filler filler))
      (fun t => t.pc == 4112#32 && t.readReg 3 == 4294934528#32) = some true := by decide
theorem test_step_sxhShort_A32 :
    after (step (withPacket base 0xCFFC2C7F#32 filler filler filler))
      (fun t => t.pc == 4112#32 && t.readReg 3 == 32767#32) = some true := by decide
theorem test_step_addLong_A33 :
    after (step (withPacket (withRegs base [(1,286331153#32)]) 0xD0000061#32 0xDEADBEEF#32 filler filler))
      (fun t => t.pc == 4112#32 && t.readReg 3 == 4022259712#32) = some true := by decide
theorem test_step_movLong_A34 :
    after (step (withPacket base 0xD0002060#32 0x12345678#32 filler filler))
      (fun t => t.pc == 4112#32 && t.readReg 3 == 305419896#32) = some true := by decide
theorem test_step_mvnLong_A35 :
    after (step (withPacket base 0xD0002460#32 0x12345678#32 filler filler))
      (fun t => t.pc == 4112#32 && t.readReg 3 == 3989547399#32) = some true := by decide
theorem test_step_movRegsh_S14 :
    after (step (withPacket (withRegs base [(2,2147483649#32), (1,4#32)]) 0xD020A061#32 filler filler filler))
      (fun t => t.pc == 4112#32 && t.readReg 3 == 16#32) = some true := by decide
theorem test_step_mvnRegsh_S29 :
    after (step (withPacket (withRegs base [(2,1#32), (1,8#32)]) 0xD020A461#32 filler filler filler))
      (fun t => t.pc == 4112#32 && t.readReg 3 == 4294967039#32) = some true := by decide
theorem test_step_sxbRegsh_S30 :
    after (step (withPacket (withRegs base [(2,61440#32), (1,8#32)]) 0xD028A861#32 filler filler filler))
      (fun t => t.pc == 4112#32 && t.readReg 3 == 4294967280#32) = some true := by decide
theorem test_step_sxhRegsh_S31 :
    after (step (withPacket (withRegs base [(2,2309685248#32), (1,16#32)]) 0xD028AC61#32 filler filler filler))
      (fun t => t.pc == 4112#32 && t.readReg 3 == 4294937003#32) = some true := by decide
theorem test_step_cmpltuReg_C1 :
    after (step (withPacket (withRegs base [(1,0#32), (2,4294967295#32)]) 0xD4009C21#32 filler filler filler))
      (fun t => t.pc == 4112#32 && t.readPred 1 == true) = some true := by decide
theorem test_step_cmpleuReg_C6 :
    after (step (withPacket (withRegs base [(1,0#32), (2,4294967295#32)]) 0xD4009CA1#32 filler filler filler))
      (fun t => t.pc == 4112#32 && t.readPred 1 == true) = some true := by decide
theorem test_step_cmpeqReg_C11 :
    after (step (withPacket (withRegs base [(1,0#32), (2,4294967295#32)]) 0xD4009D21#32 filler filler filler))
      (fun t => t.pc == 4112#32 && t.readPred 1 == false) = some true := by decide
theorem test_step_cmpltsReg_C16 :
    after (step (withPacket (withRegs base [(1,0#32), (2,4294967295#32)]) 0xD4009E21#32 filler filler filler))
      (fun t => t.pc == 4112#32 && t.readPred 1 == false) = some true := by decide
theorem test_step_cmplesReg_C21 :
    after (step (withPacket (withRegs base [(1,0#32), (2,4294967295#32)]) 0xD4009EA1#32 filler filler filler))
      (fun t => t.pc == 4112#32 && t.readPred 1 == false) = some true := by decide
theorem test_step_cmpbsReg_C26 :
    after (step (withPacket (withRegs base [(1,2147483648#32), (2,2147483648#32)])
        0xD4009F21#32 filler filler filler))
      (fun t => t.pc == 4112#32 && t.readPred 1 == true) = some true := by decide
theorem test_step_cmpbcReg_C30 :
    after (step (withPacket (withRegs base [(1,0#32), (2,15#32)]) 0xD4009FA1#32 filler filler filler))
      (fun t => t.pc == 4112#32 && t.readPred 1 == true) = some true := by decide
theorem test_step_cmpltuShort_C36 :
    after (step (withPacket (withRegs base [(1,4#32)]) 0xC0141C01#32 filler filler filler))
      (fun t => t.pc == 4112#32 && t.readPred 0 == true) = some true := by decide
theorem test_step_cmpeqShort_C38 :
    after (step (withPacket (withRegs base [(1,0#32)]) 0xC0001D41#32 filler filler filler))
      (fun t => t.pc == 4112#32 && t.readPred 2 == true) = some true := by decide
theorem test_step_cmpbsShort_C39 :
    after (step (withPacket (withRegs base [(1,2147483648#32)]) 0xC0085F01#32 filler filler filler))
      (fun t => t.pc == 4112#32 && t.readPred 0 == true) = some true := by decide
theorem test_step_cmpltsLong_C40 :
    after (step (withPacket (withRegs base [(1,2147483648#32)]) 0xD0001E01#32 0xFFFFFFFF#32 filler filler))
      (fun t => t.pc == 4112#32 && t.readPred 0 == true) = some true := by decide
theorem test_step_bImm_B1 :
    after (step (withPacket { base with pc := 4096#32 } 0xD8000004#32 filler filler filler))
      (fun t => t.pc == 4160#32) = some true := by decide
theorem test_step_bReg_B8 :
    after (step (withPacket (withRegs { base with pc := 4096#32 } [(5,8200#32)]) 0xDC000005#32 filler filler filler))
      (fun t => t.pc == 8192#32) = some true := by decide
theorem test_step_blImm_B12 :
    after (step (withPacket { base with pc := 4096#32 } 0xDA000010#32 filler filler filler))
      (fun t => t.pc == 4352#32 && t.readReg 31 == 4096#32) = some true := by decide
theorem test_step_blReg_B13 :
    after (step (withPacket (withRegs { base with pc := 4096#32 } [(4,12288#32)]) 0xDE000004#32 filler filler filler))
      (fun t => t.pc == 12288#32 && t.readReg 31 == 4096#32) = some true := by decide
theorem test_step_lb_M1 :
    after (step (withPacket (withMem (withRegs base [(2,8192#32)]) [(8192#32,2864434397#32)])
        0xD2000022#32 filler filler filler))
      (fun t => t.pc == 4112#32 && t.readReg 1 == 221#32) = some true := by decide
theorem test_step_lb_M2 :
    after (step (withPacket (withMem (withRegs base [(2,8192#32)]) [(8192#32,2864434397#32)])
        0xD2006022#32 filler filler filler))
      (fun t => t.pc == 4112#32 && t.readReg 1 == 170#32) = some true := by decide
theorem test_step_lh_M3 :
    after (step (withPacket (withMem (withRegs base [(2,8192#32)]) [(8192#32,2864434397#32)])
        0xD2000422#32 filler filler filler))
      (fun t => t.pc == 4112#32 && t.readReg 1 == 52445#32) = some true := by decide
theorem test_step_lh_M4 :
    after (step (withPacket (withMem (withRegs base [(2,8192#32)]) [(8192#32,2864434397#32)])
        0xD2006422#32 filler filler filler))
      (fun t => t.pc == 4112#32 && t.readReg 1 == 43707#32) = some true := by decide
theorem test_step_lw_M5 :
    after (step (withPacket (withMem (withRegs base [(2,8192#32)]) [(8192#32,2864434397#32)])
        0xD2006822#32 filler filler filler))
      (fun t => t.pc == 4112#32 && t.readReg 1 == 2864434397#32) = some true := by decide
theorem test_step_lw_M6 :
    after (step (withPacket (withMem (withRegs base [(2,8196#32)]) [(8192#32,2864434397#32)])
        0xD3FF8822#32 filler filler filler))
      (fun t => t.pc == 4112#32 && t.readReg 1 == 2864434397#32) = some true := by decide
theorem test_step_ll_M10 :
    after (step (withPacket (withMem (withRegs { base with link := false } [(2,8192#32)]) [(8192#32,2864434397#32)])
        0xD2000C22#32 filler filler filler))
      (fun t => t.pc == 4112#32 && t.readReg 1 == 2864434397#32 && t.link == true) = some true := by decide
theorem test_step_sb_M11 :
    after (step (withPacket (withMem (withRegs base [(2,8192#32), (3,305419896#32)]) [(8192#32,2864434397#32)])
        0xD200D022#32 filler filler filler))
      (fun t => t.pc == 4112#32 && t.mem.readWord 8192 == 2864412893#32) = some true := by decide
theorem test_step_sh_M12 :
    after (step (withPacket (withMem (withRegs base [(2,8192#32), (3,305419896#32)]) [(8192#32,2864434397#32)])
        0xD200D462#32 filler filler filler))
      (fun t => t.pc == 4112#32 && t.mem.readWord 8192 == 1450757341#32) = some true := by decide
theorem test_step_sw_M13 :
    after (step (withPacket (withMem (withRegs base [(2,8192#32), (3,305419896#32)]) [(8192#32,2864434397#32)])
        0xD200D842#32 filler filler filler))
      (fun t => t.pc == 4112#32 && t.mem.readWord 8192 == 305419896#32) = some true := by decide
theorem test_step_sw_M14 :
    after (step (withPacket (withRegs base [(2,8193#32), (3,305419896#32)]) 0xD2F8DBE2#32 filler filler filler))
      (fun t => t.pc == 4112#32 && t.mem.readWord 9216 == 305419896#32) = some true := by decide
theorem test_step_sc_M16 :
    after (step (withPacket (withMem (withRegs { base with link := true, p0 := false } [(2,8192#32), (1,153#32)]) [(8192#32,2864434397#32)])
        0xD2005C02#32 filler filler filler))
      (fun t => t.pc == 4112#32 && t.readPred 0 == true && t.mem.readWord 8192 == 153#32 &&
        t.link == false) = some true := by decide
theorem test_step_sc_M17 :
    after (step (withPacket (withMem (withRegs { base with link := false, p0 := true } [(2,8192#32), (1,153#32)]) [(8192#32,2864434397#32)])
        0xD2005C02#32 filler filler filler))
      (fun t => t.pc == 4112#32 && t.readPred 0 == false && t.mem.readWord 8192 == 2864434397#32 &&
        t.link == false) = some true := by decide
theorem test_step_mult_V1 :
    after (step (withPacket (withRegs base [(1,4294967295#32), (2,4294967295#32)])
        0xD1808061#32 filler filler filler))
      (fun t => t.pc == 4112#32 && t.readReg 3 == 1#32 && t.ovf == 4294967294#32) = some true := by decide
theorem test_step_mult_V2 :
    after (step (withPacket (withRegs base [(1,4294967295#32), (2,4294967295#32)])
        0xD1888061#32 filler filler filler))
      (fun t => t.pc == 4112#32 && t.readReg 3 == 1#32 && t.ovf == 0#32) = some true := by decide
theorem test_step_div_V11 :
    after (step (withPacket (withRegs base [(1,7#32), (2,2#32)]) 0xD1908061#32 filler filler filler))
      (fun t => t.pc == 4112#32 && t.readReg 3 == 3#32 && t.ovf == 1#32) = some true := by decide
theorem test_step_div_V12 :
    after (step (withPacket (withRegs base [(1,7#32), (2,2#32)]) 0xD1988061#32 filler filler filler))
      (fun t => t.pc == 4112#32 && t.readReg 3 == 3#32 && t.ovf == 1#32) = some true := by decide
theorem test_step_mfhi_V35 :
    after (step (withPacket { base with ovf := 3405705229#32 } 0xD1A00080#32 filler filler filler))
      (fun t => t.pc == 4112#32 && t.readReg 4 == 3405705229#32) = some true := by decide
theorem test_step_mthi_V36 :
    after (step (withPacket (withRegs base [(5,291#32)]) 0xD1B00005#32 filler filler filler))
      (fun t => t.pc == 4112#32 && t.ovf == 291#32) = some true := by decide
theorem test_step_syscall_Y1 :
    after (step (withPacket { base with pc := 4656#32, mode := .user, link := true, eha := 512#32, pflags := 1#32 } 0xD1200000#32 filler filler filler))
      (fun t => t.pc == 512#32 && t.pflags == 0#32 && t.epc == 4657#32 && t.ec0 == 9#32 && t.ec1 == 0#32 &&
        t.ec2 == 0#32 && t.ec3 == 0#32 && t.mode == .kernel && t.link == false) = some true := by decide
theorem test_step_brk_Y2 :
    after (step (withPacket { base with pc := 4656#32, mode := .kernel, eha := 524#32 } 0xD1100000#32 filler filler filler))
      (fun t => t.pc == 512#32 && t.pflags == 0#32 && t.epc == 4658#32 && t.ec0 == 10#32 &&
        t.mode == .kernel) = some true := by decide
theorem test_step_syscall_Y3 :
    after (step (withPacket { base with pc := 4656#32, p0 := true } 0x31200000#32 filler filler filler))
      (fun t => t.pc == 4672#32) = some true := by decide
theorem test_step_fence_Y5 :
    after (step (withPacket { base with pc := 4096#32 } 0xD1300000#32 filler filler filler))
      (fun t => t.pc == 4112#32) = some true := by decide
theorem test_step_eret_Y6 :
    after (step (withPacket { base with mode := .kernel, epc := 4657#32, link := true } 0xD1400000#32 filler filler filler))
      (fun t => t.pc == 4656#32 && t.pflags == 1#32 && t.mode == .user && t.link == false) = some true := by decide
theorem test_step_eret_Y7 :
    after (step (withPacket { base with mode := .kernel, epc := 8206#32, pflags := 1#32 } 0xD1400000#32 filler filler filler))
      (fun t => t.pc == 8192#32 && t.pflags == 0#32 && t.mode == .kernel) = some true := by decide
theorem test_step_mfc_Y9 :
    after (step (withPacket { base with mode := .kernel, epc := 4658#32 } 0xD1600023#32 filler filler filler))
      (fun t => t.pc == 4112#32 && t.readReg 1 == 4658#32) = some true := by decide
theorem test_step_mfc_Y10 :
    after (step (withPacket { base with mode := .user, eha := 512#32, pflags := 1#32 } 0xD1600020#32 filler filler filler))
      (fun t => t.pc == 512#32 && t.pflags == 0#32 && t.epc == 4097#32 && t.ec0 == 3#32 &&
        t.mode == .kernel) = some true := by decide
theorem test_step_mtc_Y12 :
    after (step (withPacket (withRegs { base with mode := .kernel } [(1,4294967295#32)])
        0xD1700001#32 filler filler filler))
      (fun t => t.pc == 4112#32 && t.pflags == 3#32) = some true := by decide
theorem test_step_mtc_Y13 :
    after (step (withPacket (withRegs { base with mode := .kernel } [(4,519#32)]) 0xD1700044#32 filler filler filler))
      (fun t => t.pc == 4112#32 && t.eha == 519#32) = some true := by decide
theorem test_step_flush_Y16 :
    after (step (withPacket (withRegs base [(2,8192#32)]) 0xD1500002#32 filler filler filler))
      (fun t => t.pc == 4112#32) = some true := by decide
theorem test_step_flush_Y17 :
    after (step (withPacket (withRegs base [(2,4294963200#32)]) 0xD1500C02#32 filler filler filler))
      (fun t => t.pc == 4112#32) = some true := by decide
theorem test_step_addShort_Y18 :
    after (step (withPacket (withRegs { base with pc := 4096#32, mode := .user, irq := true, eha := 512#32, pflags := 1#32 } [(1,1#32)])
        0xC0040021#32 filler filler filler))
      (fun t => t.pc == 512#32 && t.readReg 1 == 1#32 && t.pflags == 0#32 && t.epc == 4097#32 && t.ec0 == 8#32 &&
        t.ec1 == 0#32 && t.mode == .kernel) = some true := by decide

/-! Packets (95_test_vectors.md, vectors K). -/

theorem test_packet_K1 :
    after (step (withPacket (withRegs base [(1,43690#32), (2,48059#32)]) 0xD400A020#32 0xD4006040#32 filler filler))
      (fun t => t.pc == 4112#32 && t.readReg 1 == 48059#32 && t.readReg 2 == 43690#32) = some true := by decide
theorem test_packet_K2 :
    after (step (withPacket (withRegs { base with p0 := false } [(1,0#32), (2,9#32)])
        0xC0001D01#32 0x00042040#32 filler filler))
      (fun t => t.pc == 4112#32 && t.readReg 2 == 9#32 && t.readPred 0 == true) = some true := by decide
theorem test_packet_K3 :
    after (step (withPacket (withRegs { base with eha := 512#32 } [(1,85#32)])
        0xC0042020#32 0xC0082020#32 filler filler))
      (fun t => t.pc == 512#32 && t.readReg 1 == 85#32 && t.epc == 4098#32 && t.ec0 == 4#32 && t.ec1 == 4#32 &&
        t.ec2 == 0#32 && t.ec3 == 0#32) = some true := by decide
theorem test_packet_K4 :
    after (step (withPacket (withRegs { base with p0 := false } [(1,85#32)])
        0x00042020#32 0x20082020#32 filler filler))
      (fun t => t.pc == 4112#32 && t.readReg 1 == 2#32) = some true := by decide
theorem test_packet_K5 :
    after (step (withPacket (withRegs { base with p1 := false, eha := 512#32 } [(1,0#32)])
        0xC0001D21#32 filler 0xC0041C21#32 0xC0001CA1#32))
      (fun t => t.pc == 512#32 && t.readPred 1 == false && t.ec0 == 4#32 && t.ec1 == 0#32 && t.ec2 == 4#32 &&
        t.ec3 == 4#32) = some true := by decide
theorem test_packet_K6 :
    after (step (withPacket (withRegs base [(1,0#32)]) 0xC0001D61#32 0xC0041D61#32 filler filler))
      (fun t => t.pc == 4112#32 && t.readPred 3 == true) = some true := by decide
theorem test_packet_K7 :
    after (step (withPacket { base with eha := 512#32 } 0xDA000004#32 0xC01423E0#32 filler filler))
      (fun t => t.pc == 512#32 && t.ec0 == 4#32 && t.ec1 == 4#32) = some true := by decide
theorem test_packet_K8 :
    after (step (withPacket { base with eha := 512#32 } filler 0xD1300000#32 filler filler))
      (fun t => t.pc == 512#32 && t.epc == 4098#32 && t.ec0 == 0#32 && t.ec1 == 2#32 && t.ec2 == 0#32 &&
        t.ec3 == 0#32) = some true := by decide
theorem test_packet_K9 :
    after (step (withPacket { base with eha := 512#32 } filler 0xD8000004#32 filler filler))
      (fun t => t.pc == 512#32 && t.ec0 == 0#32 && t.ec1 == 2#32) = some true := by decide
theorem test_packet_K10 :
    after (step (withPacket (withRegs { base with eha := 512#32 } [(2,8192#32)]) filler filler 0xD2000822#32 filler))
      (fun t => t.pc == 512#32 && t.ec0 == 0#32 && t.ec1 == 0#32 && t.ec2 == 2#32 &&
        t.ec3 == 0#32) = some true := by decide
theorem test_packet_K11 :
    after (step (withPacket { base with eha := 512#32 } filler filler filler 0xD0002020#32))
      (fun t => t.pc == 512#32 && t.ec0 == 0#32 && t.ec1 == 0#32 && t.ec2 == 0#32 &&
        t.ec3 == 2#32) = some true := by decide
theorem test_packet_K12 :
    after (step (withPacket base filler 0xF1300000#32 filler filler))
      (fun t => t.pc == 4112#32) = some true := by decide
theorem test_packet_K13 :
    after (step (withPacket { base with eha := 512#32 } 0xC0003000#32 filler filler filler))
      (fun t => t.pc == 512#32 && t.ec0 == 2#32) = some true := by decide
theorem test_packet_K14 :
    after (step (withPacket (withRegs { base with eha := 512#32 } [(1,0#32)]) 0xC0001D81#32 filler filler filler))
      (fun t => t.pc == 512#32 && t.ec0 == 2#32) = some true := by decide
theorem test_packet_K15 :
    after (step (withPacket { base with eha := 512#32 } 0xD1000000#32 filler filler filler))
      (fun t => t.pc == 512#32 && t.ec0 == 2#32) = some true := by decide
theorem test_packet_K16 :
    after (step (withPacket { base with p0 := false } 0x11F00000#32 filler filler filler))
      (fun t => t.pc == 4112#32) = some true := by decide
theorem test_packet_K17 :
    after (step (withPacket (withRegs { base with eha := 512#32 } [(1,1#32), (2,1#32)])
        0xD0208061#32 filler filler filler))
      (fun t => t.pc == 512#32 && t.ec0 == 2#32) = some true := by decide
theorem test_packet_K18 :
    after (step (withPacket base 0xD0002020#32 0xD1200000#32 filler filler))
      (fun t => t.pc == 4112#32 && t.readReg 1 == 3508535296#32) = some true := by decide
theorem test_packet_K19 :
    after (step (withPacket (withRegs base [(1,85#32)]) 0xF0002020#32 0xD1200000#32 0xC0042040#32 filler))
      (fun t => t.pc == 4112#32 && t.readReg 1 == 85#32 && t.readReg 2 == 1#32) = some true := by decide
theorem test_packet_K20 :
    after (step (withPacket (withRegs base [(2,1#32)]) 0xD0002020#32 0x11111111#32 0xD0000042#32 0x22222222#32))
      (fun t => t.pc == 4112#32 && t.readReg 1 == 286331153#32 &&
        t.readReg 2 == 572662307#32) = some true := by decide
theorem test_packet_K21 :
    after (step (withPacket (withRegs { base with eha := 512#32 } [(1,1#32), (2,0#32)])
        0xD1908061#32 filler 0xC0003400#32 filler))
      (fun t => t.pc == 512#32 && t.epc == 4098#32 && t.ec0 == 7#32 && t.ec1 == 0#32 && t.ec2 == 2#32 &&
        t.ec3 == 0#32) = some true := by decide
theorem test_packet_K22 :
    after (step (withPacket (withRegs { base with eha := 512#32 } [(2,805306368#32), (4,1073741826#32), (5,0#32)])
        0xD2000822#32 0xD2015804#32 filler filler))
      (fun t => t.pc == 512#32 && t.ec0 == 6#32 && t.ec1 == 6#32 && t.ea0 == 805306368#32 &&
        t.ea1 == 1073741826#32) = some true := by decide

/-! The parameters of 00_scope.md R5 at other values than their defaults. -/

theorem test_params_cmpbc_all_clear_C32 :
    after (step (withPacket (withRegs allClear [(1, 0xF0#32), (2, 0xFF#32)]) 0xD4009FA1#32 filler filler filler))
      (fun t => t.readPred 1 == false) = some true := by decide
theorem test_params_cmpbc_all_clear_C33 :
    after (step (withPacket (withRegs allClear [(1, 0x12345678#32), (2, 0#32)]) 0xD4009FA1#32 filler filler filler))
      (fun t => t.readPred 1 == true) = some true := by decide
/-- Vector K4, whose two writes of R1 may not share a packet here. -/
theorem test_params_static_duplicate_K4 :
    after (runPacket ⟨.instr (.addShort ⟨0, false⟩ 1#10 0#4 1 0), .instr (.addShort ⟨0, true⟩ 2#10 0#4 1 0), .operand,
        .operand⟩ staticDup)
      (fun t => t.ec0 == 4#32 && t.ec1 == 4#32 && t.ec2 == 0#32 && t.ec3 == 0#32) = some true := by decide
theorem test_params_epc_bits_trap :
    after (step (withPacket { base with params := otherEpc, pflags := 1#32 } 0xD1200000#32 filler filler filler))
      (fun t => t.epc == 0x100C#32 && t.params == otherEpc) = some true := by decide
theorem test_params_epc_bits_eret :
    after (step (withPacket { base with params := otherEpc, epc := 0x1238#32 } 0xD1400000#32 filler filler filler))
      (fun t => t.pc == 0x1230#32 && t.mode == .user && t.pflags == 1#32) = some true := by decide
/-- R1 <- *l(R2) beside *l(R2) <- R3. -/
theorem test_params_order_slot0_first :
    after (runPacket ⟨.instr (.lw on 0#12 1 2), .instr (.sw on 0#11 false 3 2), .operand, .operand⟩
        (withMem (withRegs (ordered .slot0First) [(2, 0x2000#32), (3, 7#32)]) [(0x2000#32, 5#32)]))
      (fun t => t.readReg 1 == 5#32 && t.mem.readWord 0x2000 == 7#32) = some true := by decide
theorem test_params_order_slot1_first :
    after (runPacket ⟨.instr (.lw on 0#12 1 2), .instr (.sw on 0#11 false 3 2), .operand, .operand⟩
        (withMem (withRegs (ordered .slot1First) [(2, 0x2000#32), (3, 7#32)]) [(0x2000#32, 5#32)]))
      (fun t => t.readReg 1 == 7#32 && t.mem.readWord 0x2000 == 7#32) = some true := by decide
/-- Two stores of one word: the later one stands. -/
theorem test_params_order_stores :
    after (runPacket ⟨.instr (.sw on 0#11 false 3 2), .instr (.sw on 0#11 false 4 2), .operand, .operand⟩
        (withRegs (ordered .slot1First) [(2, 0x2000#32), (3, 7#32), (4, 9#32)]))
      (fun t => t.mem.readWord 0x2000 == 7#32) = some true := by decide
theorem test_params_reset_pc :
    (State.resetWith { Params.default with resetPacket := 0xABCDEF0#28 }).pc = 0xABCDEF00#32 := by decide

/-! Program 6 of 95_test_vectors.md and its variants, one step each. -/

theorem test_paged_store_step6 :
    after (step (withPacketAt (withRegs { paged with pc := 0x50#32 } [(4, 0x400000#32), (5, 0x5A#32)]) 0x50#32
        0xD2015904#32 filler filler filler))
      (fun t => t.pc == 0x60#32 && t.mem.readWord 0x5008 == 0x5A#32) = some true := by decide
theorem test_paged_loads_step7 :
    after (step (withPacketAt (withMem (withRegs { paged with pc := 0x60#32 }
        [(4, 0x400000#32), (7, 0x401000#32)]) [(0x5008#32, 0x5A#32)]) 0x60#32 0xD20108C4#32 0xD2000907#32 filler filler))
      (fun t => t.pc == 0x70#32 && t.readReg 6 == 0x5A#32 && t.readReg 8 == 0x600D600D#32) = some true := by decide
theorem test_paged_write_protect_step8 :
    after (step (withPacketAt (withRegs { paged with pc := 0x70#32 } [(7, 0x401000#32), (5, 0x5A#32)]) 0x70#32
        0xD20158C7#32 filler filler filler))
      (fun t => t.pc == 0x100#32 && t.epc == 0x72#32 && t.ec0 == 5#32 && t.ea0 == 0x401006#32 &&
        t.mem.readWord 0x6004 == 0#32) = some true := by decide
/-- The same page with an SC in the place of the SW and the link bit clear: it faults too (44_load_store.md R177). -/
theorem test_paged_sc_link_clear :
    after (step (withPacketAt (withRegs { paged with pc := 0x70#32, p0 := true } [(7, 0x401000#32), (5, 0x5A#32)]) 0x70#32
        0xD2015CC7#32 filler filler filler))
      (fun t => t.pc == 0x100#32 && t.epc == 0x72#32 && t.ec0 == 5#32 && t.ea0 == 0x401006#32 &&
        t.readPred 0 == true) = some true := by decide
theorem test_paged_user_load_6b :
    after (step (withPacketAt (withRegs { paged with pc := 0x400010#32, mode := .user } [(1, 0x20#32)]) 0x5010#32
        0xD2000841#32 filler filler filler))
      (fun t => t.pc == 0x100#32 && t.epc == 0x400010#32 && t.ec0 == 5#32 && t.ea0 == 0x20#32 &&
        t.mode == .kernel) = some true := by decide
theorem test_paged_user_fetch_6c :
    after (step { paged with pc := 0x402000#32, mode := .user, pflags := 3#32 })
      (fun t => t.pc == 0x100#32 && t.epc == 0x402001#32 && t.ec0 == 1#32 && t.ec1 == 0#32 && t.ea0 == 0#32 &&
        t.pflags == 2#32 && t.mode == .kernel) = some true := by decide

/-! Interrupts (60_exceptions.md R228, R232), refusals (30_encoding.md R104, 20_memory.md R71), fetch of an invalid
address (R226). -/

theorem test_interrupt :
    after (step { base with pflags := 1#32, irq := true, eha := 0x203#32, ea0 := 7#32, ec1 := 5#32, link := true })
      (fun t => t.pc == 0x200#32 && t.epc == 0x1003#32 && t.ec0 == 8#32 && t.ec1 == 0#32 && t.ea0 == 7#32 &&
        t.link == false && t.pflags == 0#32) = some true := by decide
theorem test_interrupt_masked :
    after (step (withPacket { base with irq := true } filler filler filler filler)) (fun t => t.pc) =
      some 0x1010#32 := by decide
theorem test_store_m_refused :
    refusal (step (withPacket base 0xD200F802#32 filler filler filler)) = some .storeWithMBit := by decide
theorem test_flush_c_refused :
    refusal (step (withPacket base 0xD1580002#32 filler filler filler)) = some .flushWithCBit := by decide
theorem test_overlap_refused :
    refusal (step (withPacket base 0xD2000822#32 0xD200D802#32 filler filler)) = some .memorySlotsConflict := by decide
theorem test_fetch_invalid :
    after (step { base with pc := 0x20000000#32, eha := 0x100#32, ea0 := 0x77#32 })
      (fun t => t.pc == 0x100#32 && t.epc == 0x20000002#32 && t.ec0 == 6#32 && t.ea0 == 0x77#32) = some true := by
  decide


/-! Witnesses: for each statement of Certificates/Slice0/Obligations.lean that has hypotheses, concrete states and operands
that meet all of them together, one for each clause, at the boundaries of its ranges. -/

theorem test_witness_RegisterShifts : (31#32 : Word).toNat ≤ 31 ∧ 31 < (32#32 : Word).toNat := by decide
theorem test_witness_AddSubRsbWrite : State.reset.holds on = true := by decide
theorem test_witness_BitwiseAluWrite : State.reset.holds on = true := by decide
theorem test_witness_OneOperandAluWrite : State.reset.holds on = true := by decide
theorem test_witness_ComparesWrite : State.reset.holds on = true := by decide
theorem test_witness_CmpbcWrites : State.reset.holds on = true := by decide
theorem test_witness_UnknownBitsRefused : State.reset.holds on = true := by decide
theorem test_witness_BranchesJump : State.reset.holds on = true := by decide
theorem test_witness_MultWritesProduct : State.reset.holds on = true := by decide
theorem test_witness_MfhiMthi : State.reset.holds on = true := by decide
theorem test_witness_SyscallAndBreakTrap : State.reset.holds on = true := by decide
theorem test_witness_FenceDoesNothing : State.reset.holds on = true := by decide
theorem test_witness_FlushTlbRemovesPage : State.reset.holds on = true := by decide

/-- The first and the last byte, half-word and word of RAM with PG = 0. -/
theorem test_witness_LoadsReadRam_off :
    State.reset.holds on = true ∧ isRam 0#32 = true ∧ isRam 0x1FFFFFFF#32 = true ∧
    (dataTranslation State.reset 0 .byte (loadAddr (State.reset.readReg 0) 0#12) false).result = .ok 0#32 ∧
    (dataTranslation (withRegs State.reset [(1, 0x20000000#32)]) 0 .byte (loadAddr 0x20000000#32 0xFFF#12) false).result =
      .ok 0x1FFFFFFF#32 ∧
    (dataTranslation State.reset 0 .half (loadAddr 0x20000000#32 0xFFF#12) false).result = .ok 0x1FFFFFFE#32 ∧
    (dataTranslation State.reset 0 .word (loadAddr 0x20000000#32 0xFFF#12) false).result = .ok 0x1FFFFFFC#32 := by
  decide

/-- And through the page tables in user mode. -/
theorem test_witness_LoadsReadRam_on :
    { paged with mode := .user }.holds on = true ∧ isRam 0x6000#32 = true ∧
    (dataTranslation { paged with mode := .user } 0 .byte (loadAddr 0x401000#32 0#12) false).result = .ok 0x6000#32 ∧
    (dataTranslation { paged with mode := .user } 0 .half (loadAddr 0x401000#32 1#12) false).result = .ok 0x6000#32 ∧
    (dataTranslation { paged with mode := .user } 0 .word (loadAddr 0x401000#32 3#12) false).result =
      .ok 0x6000#32 := by decide

/-- And in slot 1, beside slots that issue nothing. -/
theorem test_witness_LoadsReadRam_slot1 :
    (1 : Fin 4).val ≤ 1 ∧ Only ⟨.operand, .instr (.ll on 0#12 1 0), .operand, .operand⟩ 1 (.ll on 0#12 1 0) State.reset ∧
    (dataTranslation State.reset 1 .word (loadAddr (State.reset.readReg 0) 0#12) false).result = .ok 0#32 :=
  ⟨by decide, ⟨rfl, by decide⟩, by decide⟩

/-- A store in slot 1, of the first and the last word of a page through the page tables. -/
theorem test_witness_StoresWriteRam_slot1 :
    Only ⟨.operand, .instr (.sw on 0#11 false 1 0), .operand, .operand⟩ 1 (.sw on 0#11 false 1 0) paged ∧
    (dataTranslation paged 1 .word (storeAddr 0x400000#32 0#11) true).result = .ok 0x5000#32 ∧
    (dataTranslation paged 1 .word (storeAddr 0x401000#32 0x7FF#11) true).result = .ok 0x5FFC#32 ∧
    isRam 0x5FFC#32 = true := ⟨⟨rfl, by decide⟩, by decide, by decide, by decide⟩

theorem test_witness_StoresWriteRam :
    { paged with mode := .user }.holds on = true ∧ isRam 0x5008#32 = true ∧ isRam 0x1FFFFFFF#32 = true ∧
    (dataTranslation { paged with mode := .user } 0 .byte (storeAddr 0x400000#32 8#11) true).result = .ok 0x5008#32 ∧
    (dataTranslation { paged with mode := .user } 0 .half (storeAddr 0x400000#32 9#11) true).result = .ok 0x5008#32 ∧
    (dataTranslation { paged with mode := .user } 0 .word (storeAddr 0x400000#32 11#11) true).result = .ok 0x5008#32 ∧
    (dataTranslation State.reset 0 .byte (storeAddr 0x20000000#32 0x7FF#11) true).result = .ok 0x1FFFFFFF#32 := by
  decide

/-- Both cases of the link bit, in slots 0 and 1, and with it clear through a page with W = 1. -/
theorem test_witness_StoreConditional :
    State.reset.holds on = true ∧ State.reset.link = false ∧ { State.reset with link := true }.link = true ∧
    { State.reset with link := true }.holds on = true ∧ isRam 0x1FFFFFFC#32 = true ∧
    (dataTranslation { State.reset with link := true } 1 .word (storeAddr 0x20000000#32 0x7FF#11) true).result =
      .ok 0x1FFFFFFC#32 ∧
    (∀ k : Fin 4, (dataTranslation State.reset k .word (storeAddr 0x20000000#32 0x7FF#11) true).result =
      .ok 0x1FFFFFFC#32) ∧
    paged.link = false ∧
    (dataTranslation paged 0 .word (storeAddr 0x400000#32 0#11) true).result = .ok 0x5000#32 := by
  decide

/-- Both failures, of a load and of a store. -/
theorem test_witness_MemoryFaultsTrap :
    State.reset.holds on = true ∧ paged.holds on = true ∧
    (dataTranslation State.reset 0 .byte (loadAddr 0x20000000#32 0#12) false).result = .error .invalidPhysical ∧
    (dataTranslation State.reset 0 .word (storeAddr 0x80000000#32 0x7FF#11) true).result = .error .invalidPhysical ∧
    (dataTranslation paged 0 .word (loadAddr 0x402000#32 0#12) false).result = .error .pageFault ∧
    (dataTranslation paged 0 .word (storeAddr 0x401000#32 6#11) true).result = .error .pageFault := by decide

/-- The same in slot 1, beside slots that issue nothing. -/
theorem test_witness_MemoryFaultsTrap_slot1 :
    slotAt ⟨.operand, .instr (.lw on 0#12 1 2), .operand, .operand⟩ 1 = .instr (.lw on 0#12 1 2) ∧
    (∀ k, k ≠ 1 → laneAt ⟨.operand, .instr (.lw on 0#12 1 2), .operand, .operand⟩ paged k = Lane.idle) ∧
    (∀ k, k ≠ 1 → laneAt ⟨.operand, .instr (.sc on 6#11 false 1 2), .operand, .operand⟩ paged k = Lane.idle) ∧
    (dataTranslation paged 1 .word (loadAddr 0x402000#32 0#12) false).result = .error .pageFault ∧
    (dataTranslation paged 1 .word (storeAddr 0x401000#32 6#11) true).result = .error .pageFault ∧
    (dataTranslation State.reset 1 .word (loadAddr 0x20000000#32 0#12) false).result = .error .invalidPhysical ∧
    (dataTranslation State.reset 1 .word (storeAddr 0x20000000#32 0#11) true).result = .error .invalidPhysical := by
  decide

/-- The first and the last word of the peripheral region with PG = 0, and its first page through the page tables. -/
theorem test_witness_PeripheralAccesses :
    State.reset.holds on = true ∧ 0x80000000 ≤ (0x80000000#32 : Word).toNat ∧
    (translate State.reset [] (.lane 0) (Size.word.align (loadAddr 0x80000000#32 3#12)) false).result =
      .ok 0x80000000#32 ∧
    (translate State.reset [] (.lane 0) (Size.word.align (storeAddr 0#32 0x7FF#11)) true).result = .ok 0xFFFFFFFC#32 ∧
    { withMem paged [(0x12008#32, 0x80000007#32)] with mode := .user, link := true }.holds on = true ∧
    (translate { withMem paged [(0x12008#32, 0x80000007#32)] with mode := .user, link := true } [] (.lane 0)
      (Size.word.align (storeAddr 0x402000#32 5#11)) true).result = .ok 0x80000004#32 := by decide

theorem test_witness_StoreThenLoad :
    State.reset.pg = false ∧ State.reset.holds on = true ∧
    loadAddr (State.reset.readReg 2) 0#12 = storeAddr (State.reset.readReg 2) 0#11 ∧
    (storeAddr (State.reset.readReg 2) 0#11).toNat < 0x20000000 ∧
    loadAddr 0x20000000#32 0xFFF#12 = storeAddr 0x20000000#32 0x7FF#11 ∧
    (storeAddr 0x20000000#32 0x7FF#11).toNat = 0x1FFFFFFF := by decide

theorem test_witness_TranslationOff :
    State.reset.pg = false ∧ (0x1FFFFFFC#32 : Word).toNat = (0x1FFFFFFF#32 : Word).toNat - (0x1FFFFFFF#32 : Word).toNat %
      Size.word.bytes := by decide

theorem test_witness_TranslationOn :
    paged.pg = true ∧ (0x5008#32 : Word).toNat = (0x500B#32 : Word).toNat - (0x500B#32 : Word).toNat % Size.word.bytes := by
  decide

/-- Every way a walk can go: present at both levels, absent at the first, absent at the second, tables outside RAM. -/
theorem test_witness_TableWalk :
    isRam 0x10004#32 = true ∧ isRam 0x12004#32 = true ∧
    0x10004#32 = paged.ptb.extractLsb' 12 20 ++ (0x401006#32 : Word).extractLsb' 22 10 ++ 0#2 ∧
    (paged.mem.readWord 0x10004).getLsbD 0 = true ∧ (paged.mem.readWord 0x12004).getLsbD 0 = true ∧
    (paged.mem.readWord 0x10008).getLsbD 0 = false ∧ (paged.mem.readWord 0x12008).getLsbD 0 = false ∧
    0x20000000#32 = { paged with ptb := 0x20000000#32 }.ptb.extractLsb' 12 20 ++ (0#32 : Word).extractLsb' 22 10 ++ 0#2 ∧
    ((withMem paged [(0x10000#32, 0x20000007#32)]).mem.readWord 0x10000).getLsbD 0 = true ∧
    0x20000000#32 = ((withMem paged [(0x10000#32, 0x20000007#32)]).mem.readWord 0x10000).extractLsb' 12 20 ++
      (0#32 : Word).extractLsb' 12 10 ++ 0#2 := by decide

/-- Table addresses that answer, in RAM, and one that does not; one in the peripheral region does one or the other, as the
platform answers. -/
theorem test_witness_TableWalk_addresses :
    SpecAnswers 0x1FFFFFFC#32 ∧ ¬SpecAnswers 0x20000000#32 ∧
    (SpecAnswers 0x80000000#32 ↔ Config.periphValid 0x80000000#32 = true) ∧
    0x80000000#32 = { paged with ptb := 0x80000000#32 }.ptb.extractLsb' 12 20 ++ (0#32 : Word).extractLsb' 22 10 ++ 0#2 := by
  refine ⟨.inl (by decide), ?_, ?_, by decide⟩ <;> simp [SpecAnswers]

theorem test_witness_FetchAfterFlush :
    isRam 0x1000#32 = true ∧ base.pg = false ∧ base.holds on = true ∧
    lineOf (0x1000#32 : Word).toNat = lineOf ((withRegs base [(2, 0x1000#32)]).readReg 2).toNat := by
  refine ⟨by decide, by decide, by decide, rfl⟩

/-- The least divisor, and the greatest high word below it. -/
theorem test_witness_DivUnsigned :
    (withRegs State.reset [(2, 1#32)]).holds on = true ∧ (withRegs State.reset [(2, 1#32)]).readReg 2 ≠ 0#32 ∧
    (withRegs State.reset [(2, 1#32)]).ovf.toNat < ((withRegs State.reset [(2, 1#32)]).readReg 2).toNat ∧
    { withRegs State.reset [(2, 0xFFFFFFFF#32)] with ovf := 0xFFFFFFFE#32 }.ovf.toNat <
      ((withRegs State.reset [(2, 0xFFFFFFFF#32)]).readReg 2).toNat := by decide

/-- The narrow clause beside its one excluded pair, and a wide division: 2^32 - 1 by -2 gives -2147483647 rest 1. -/
theorem test_witness_DivSigned :
    (withRegs State.reset [(1, 0x80000001#32), (2, 0xFFFFFFFF#32)]).holds on = true ∧
    (withRegs State.reset [(1, 0x80000001#32), (2, 0xFFFFFFFF#32)]).readReg 2 ≠ 0#32 ∧
    ¬(((withRegs State.reset [(1, 0x80000001#32), (2, 0xFFFFFFFF#32)]).readReg 1).toInt = -0x80000000 ∧
      ((withRegs State.reset [(1, 0x80000001#32), (2, 0xFFFFFFFF#32)]).readReg 2).toInt = -1) ∧
    (State.reset.ovf ++ (0xFFFFFFFF#32 : Word) : BitVec 64).toInt =
      (-2147483647) * (0xFFFFFFFE#32 : Word).toInt + 1 ∧
    (1 : Int).natAbs < (0xFFFFFFFE#32 : Word).toInt.natAbs ∧ (0xFFFFFFFE#32 : Word) ≠ 0#32 ∧
    (0 < (1 : Int) ↔ 0 < (State.reset.ovf ++ (0xFFFFFFFF#32 : Word) : BitVec 64).toInt) ∧
    State.reset.params.signedDivision = .truncating ∧
    -0x80000000 ≤ sdiv .truncating (-0x80000000) 1 ∧ sdiv .truncating (-0x80000000) 1 < 0x80000000 := by decide

/-- A division whose quotient fits, and one whose quotient does not. -/
theorem test_witness_DivAlwaysCompletes :
    (withRegs State.reset [(2, 1#32)]).holds on = true ∧ (withRegs State.reset [(2, 1#32)]).readReg 2 ≠ 0#32 ∧
    quotientFits true (quotient .truncating true (dividend true false 0#32 0x80000000#32) (divisor true 0xFFFFFFFF#32)) = false := by
  decide

theorem test_witness_DivideByZeroTraps : State.reset.holds on = true ∧ State.reset.readReg 2 = 0#32 := by decide

/-- A return to user mode and one to kernel mode. -/
theorem test_witness_EretReturns :
    { base with epc := 0x1231#32 }.holds on = true ∧ { base with epc := 0x1231#32 }.mode = .kernel ∧
    { base with epc := 0x1232#32 }.mode = .kernel := by decide

theorem test_witness_FlushLine :
    { paged with mode := .user }.holds on = true ∧
    (translate { paged with mode := .user } paged.dtlb (.lane 0) 0x401000#32 false).result = .ok 0x6000#32 ∧
    (translate { paged with mode := .user } paged.itlb (.lane 0) 0x401000#32 false).result = .ok 0x6000#32 := by decide

/-- Both failures of both kinds. -/
theorem test_witness_FlushFaultsTrap :
    paged.holds on = true ∧
    (translate paged paged.dtlb (.lane 0) 0x402000#32 false).result = .error .pageFault ∧
    (translate paged paged.itlb (.lane 0) 0x402000#32 false).result = .error .pageFault ∧
    (translate { paged with ptb := 0x20000000#32 } paged.dtlb (.lane 0) 0#32 false).result = .error .invalidPhysical ∧
    (translate { paged with ptb := 0x20000000#32 } paged.itlb (.lane 0) 0#32 false).result =
      .error .invalidPhysical := by decide

theorem test_witness_MfcReads :
    State.reset.holds on = true ∧ State.reset.mode = .kernel ∧ cprOf 0 = some .pflags ∧ cprOf 9 = some .ea1 ∧
    cprOf 16 = some .sp0 ∧ cprOf 19 = some .sp3 := by decide

theorem test_witness_MtcWrites :
    State.reset.holds on = true ∧ State.reset.mode = .kernel ∧ cprOf 0 = some .pflags ∧ cprOf 1 = some .ptb ∧
    cprOf 19 = some .sp3 := by decide

theorem test_witness_PrivilegedInUserModeTraps :
    { base with mode := .user }.holds on = true ∧ { base with mode := .user }.mode = .user ∧
    (0 : CprNum).val ≤ 9 ∧ (9 : CprNum).val ≤ 9 ∧ 16 ≤ (16 : CprNum).val ∧ (19 : CprNum).val ≤ 19 := by decide

theorem test_witness_UndefinedCprTraps :
    { base with mode := .user }.holds on = true ∧ base.holds on = true ∧ 10 ≤ (10 : CprNum).val ∧
    (15 : CprNum).val ≤ 15 ∧ 20 ≤ (20 : CprNum).val ∧ 20 ≤ (31 : CprNum).val := by decide

/-- A predicate that is 0, and P3 inverted. -/
theorem test_witness_FalsePredicateSkips :
    State.reset.readPred (Instr.fence ⟨0, false⟩).pred.reg = (Instr.fence ⟨0, false⟩).pred.inv ∧
    State.reset.readPred (Instr.fence ⟨3, true⟩).pred.reg = (Instr.fence ⟨3, true⟩).pred.inv := by decide

/-- A compare in slot 3 and a long immediate in slot 2. -/
theorem test_witness_ExecIsLonePacket :
    Only ⟨.operand, .operand, .operand, .instr (.cmpeqShort on 0#10 0#4 1 2)⟩ 3 (.cmpeqShort on 0#10 0#4 1 2) base ∧
    (Instr.cmpeqShort on 0#10 0#4 1 2).format.type = .alu ∧ (Instr.cmpeqShort on 0#10 0#4 1 2).format ≠ .aluLong ∧
    Only ⟨.operand, .operand, .instr (.movLong on 1 0#32), .operand⟩ 2 (.movLong on 1 0#32) base ∧
    (Instr.movLong on 1 0#32).format.type = .alu ∧
    Only ⟨.instr (.syscall on), .operand, .instr (.addReg ⟨0, false⟩ 0#5 .lsl 1 1 1), .operand⟩ 0 (.syscall on) base :=
  ⟨⟨rfl, by decide⟩, by decide, by decide, ⟨rfl, by decide⟩, by decide, ⟨rfl, by decide⟩⟩

/-- Every kind of misplacement, and the slots that contribute nothing. -/
theorem test_witness_IllegalSlots :
    State.reset.holds on = true ∧ (Instr.fence on).format.type = .control ∧ (1 : Fin 4) ≠ 0 ∧
    (Instr.lb on 0#12 1 2).format.type = .memory ∧ 2 ≤ (2 : Fin 4).val ∧ (Instr.movLong on 1 0#32).format = .aluLong ∧
    State.reset.holds (Instr.fence ⟨3, true⟩).pred = false := by decide

/-- One lane that raises: vector K8, FENCE in slot 1. -/
theorem test_witness_PacketTraps_exception :
    (∀ k, (laneAt ⟨.operand, .instr (.fence on), .operand, .operand⟩ State.reset k).refusal = none) ∧
    (laneAt ⟨.operand, .instr (.fence on), .operand, .operand⟩ State.reset 1).exn ≠ none := by decide

/-- Lanes that raise nothing of their own and share a destination. -/
theorem test_witness_PacketTraps_duplicate :
    (∀ k, (laneAt ⟨.instr (.movLong on 1 5#32), .operand, .instr (.mfhi ⟨3, true⟩ 1), .instr (.movReg on 0#5 .lsl 2 1)⟩
      State.reset k).refusal = none) ∧
    duplicated ⟨.instr (.movLong on 1 5#32), .operand, .instr (.mfhi ⟨3, true⟩ 1), .instr (.movReg on 0#5 .lsl 2 1)⟩
      State.reset 0 :=
  ⟨by decide, 3, by decide, .reg 1, by decide, by decide⟩

/-- BL beside SC, a compare and an ADD: writes of pc, registers, predicates and the link bit, and no destination shared. -/
def mixedPacket : Packet :=
  ⟨.instr (.blImm on 4#25), .instr (.sc on 0#11 false 3 2), .instr (.cmpeqShort on 0#10 0#4 1 2), .instr (.addShort on 1#10 0#4 2 2)⟩

/-- A packet that commits, and four ADDs of which each reads the destination of another. -/
theorem test_witness_PacketCommits :
    (∀ k, (laneAt mixedPacket base k).exn = none ∧ (laneAt mixedPacket base k).refusal = none) ∧
    (∀ k, ¬duplicated mixedPacket base k) ∧
    (∀ a b, (laneAt mixedPacket base 0).access = some a → (laneAt mixedPacket base 1).access = some b →
      ¬SpecConflict a b) ∧
    (∀ _k : Fin 4, State.reset.holds on = true) ∧
    (∀ j k : Fin 4, (![1, 2, 3, 4] : Fin 4 → Reg) j = ![1, 2, 3, 4] k → j = k) := by
  refine ⟨by decide, ?_, fun a b h => ?_, by decide, by decide⟩
  · rintro k ⟨j, hj, d, h, h'⟩
    have := (by decide : ∀ j k, j ≠ k → ∀ d ∈ (laneAt mixedPacket base k).dests, d ∉ (laneAt mixedPacket base j).dests)
    exact this j k hj d h h'
  · have none0 : (laneAt mixedPacket base 0).access = none := by decide
    exact absurd (none0.symm.trans h) (by simp)

/-- The same destination and two, in slots 0 and 3, for both values of DUPDEST_DYNAMIC. -/
theorem test_witness_DuplicateDestinationTraps :
    (0 : Fin 4) ≠ 3 ∧ State.reset.holds on = true ∧ State.reset.holds ⟨0, false⟩ = false ∧
    State.reset.params.dupDestDynamic = true ∧ staticDup.params.dupDestDynamic = false ∧ staticDup.holds on = true ∧
    staticDup.holds ⟨0, false⟩ = false ∧ (1 : Reg) ≠ 2 ∧
    slotAt ⟨.instr (.addShort on 1#10 0#4 1 2), .operand, .operand, .instr (.addShort on 2#10 0#4 1 2)⟩ 3 =
      .instr (.addShort on 2#10 0#4 1 2) ∧
    (∀ i : Fin 4, i ≠ 0 → i ≠ 3 →
      slotAt ⟨.instr (.addShort on 1#10 0#4 1 2), .operand, .operand, .instr (.addShort on 2#10 0#4 1 2)⟩ i =
        .operand) := by decide

/-- The same word, the words just before and just after it. -/
theorem test_witness_TwoMemorySlots :
    base.holds on = true ∧ isRam 0x2000#32 = true ∧ isRam 0x2004#32 = true ∧
    (dataTranslation base 0 .word (loadAddr 0x2000#32 0#12) false).result = .ok 0x2000#32 ∧
    (dataTranslation base 1 .word (storeAddr 0x2000#32 0#11) true).result = .ok 0x2000#32 ∧
    (dataTranslation base 1 .word (storeAddr 0x2000#32 4#11) true).result = .ok 0x2004#32 ∧
    (dataTranslation base 1 .word (storeAddr 0x2000#32 0x7FC#11) true).result = .ok 0x1FFC#32 ∧
    (0x1FFC#32 : Word).toNat + 4 ≤ (0x2000#32 : Word).toNat ∧ (0x2000#32 : Word).toNat + 4 ≤ (0x2004#32 : Word).toNat ∧
    base.params.memLaneOrder = none ∧ (ordered .slot1First).params.memLaneOrder ≠ none ∧
    (ordered .slot1First).holds on = true ∧
    (dataTranslation (ordered .slot1First) 0 .word (loadAddr 0x2000#32 0#12) false).result = .ok 0x2000#32 ∧
    (dataTranslation (ordered .slot1First) 1 .word (storeAddr 0x2000#32 0#11) true).result = .ok 0x2000#32 := by
  decide

/-- Slots 0 and 1 hold memory instructions. -/
def memoryPacket (i j : Instr) : Packet := ⟨.instr i, .instr j, .operand, .operand⟩

/-- The instructions that test_witness_TwoMemorySlots_conflict pairs: each pair conflicts in a different way. -/
def conflicting : List (Instr × Instr × Access × Access) :=
  [(.lb on 3#12 1 2, .sw on 0#11 false 3 2, ⟨.load 1, 3#32, .byte⟩, ⟨.store, 0#32, .word⟩),
   (.sh on 2#11 false 1 2, .lw on 0#12 3 2, ⟨.store, 2#32, .half⟩, ⟨.load 3, 0#32, .word⟩),
   (.sb on 0#11 false 1 2, .sb on 0#11 false 3 2, ⟨.store, 0#32, .byte⟩, ⟨.store, 0#32, .byte⟩),
   (.ll on 0#12 1 2, .sc on 8#11 false 3 2, ⟨.ll 1, 0#32, .word⟩, ⟨.sc, 8#32, .word⟩),
   (.sc on 8#11 false 3 2, .sw on 0#11 false 3 2, ⟨.sc, 8#32, .word⟩, ⟨.store, 0#32, .word⟩)]

/-- Each pair meets every hypothesis of the refusal: overlapping by a byte, LL with SC, SC with a store elsewhere. -/
theorem test_witness_TwoMemorySlots_conflict :
    State.reset.params.memLaneOrder = none ∧
    ∀ c ∈ conflicting,
      HasAccess (memoryPacket c.1 c.2.1) State.reset 0 c.2.2.1 ∧ HasAccess (memoryPacket c.1 c.2.1) State.reset 1 c.2.2.2 ∧
      SpecConflict c.2.2.1 c.2.2.2 ∧
      (∀ k, (laneAt (memoryPacket c.1 c.2.1) State.reset k).exn = none ∧
        (laneAt (memoryPacket c.1 c.2.1) State.reset k).refusal = none) ∧
      (∀ k, ¬duplicated (memoryPacket c.1 c.2.1) State.reset k) := by
  have dup : ∀ c ∈ conflicting, ∀ j k, j ≠ k → ∀ d ∈ (laneAt (memoryPacket c.1 c.2.1) State.reset k).dests,
      d ∉ (laneAt (memoryPacket c.1 c.2.1) State.reset j).dests := by decide
  have hold : ∀ c ∈ conflicting,
      (c.1.format.type = .memory ∧ State.reset.holds c.1.pred = true ∧
        (laneAt (memoryPacket c.1 c.2.1) State.reset 0).access = some c.2.2.1) ∧
      (c.2.1.format.type = .memory ∧ State.reset.holds c.2.1.pred = true ∧
        (laneAt (memoryPacket c.1 c.2.1) State.reset 1).access = some c.2.2.2) := by decide
  have conflict : ∀ c ∈ conflicting, SpecConflict c.2.2.1 c.2.2.2 := by unfold SpecConflict; decide
  have quiet : ∀ c ∈ conflicting, ∀ k, (laneAt (memoryPacket c.1 c.2.1) State.reset k).exn = none ∧
      (laneAt (memoryPacket c.1 c.2.1) State.reset k).refusal = none := by decide
  exact ⟨by decide, fun c hc => ⟨⟨c.1, rfl, (hold c hc).1⟩, ⟨c.2.1, rfl, (hold c hc).2⟩, conflict c hc, quiet c hc,
    fun k ⟨j, hj, d, h, h'⟩ => dup c hc j k hj d h h'⟩⟩

/-- A packet with an instruction in slot 0 and fillers elsewhere. -/
def addPacket : State := withPacket base 0xC0140061#32 filler filler filler

theorem test_witness_StepRunsDecodedInstruction :
    addPacket.ie = false ∧ (fetchTranslation addPacket).result = .ok 0x1000#32 ∧
    decode (fetchWord addPacket 0 0x1000#32) (fetchWord addPacket 1 0x1004#32) = .ok (.addShort on 5#10 0#4 3 1) ∧
    (∀ k, k ≠ 0 → laneAt (fetchedPacket addPacket 0x1000#32) (afterFetch addPacket) k = Lane.idle) := by decide

theorem test_witness_PlacedInstructionRuns :
    base.pg = false ∧ base.pc.extractLsb' 0 4 = 0#4 ∧ base.pc.toNat < 0x20000000 ∧
    decodeTableWord 32 0xC0140061 = some (.addShort on 5#10 0#4 3 1) ∧
    { base with pc := 0x1FFFFFF0#32 }.pc.extractLsb' 0 4 = 0#4 ∧
    { base with pc := 0x1FFFFFF0#32 }.pc.toNat < 0x20000000 := by decide

theorem test_witness_InterruptTaken :
    { base with pflags := 1#32, irq := true }.pflags.getLsbD 0 = true ∧
    { base with pflags := 1#32, irq := true }.irq = true := by decide

/-- Both failures. -/
theorem test_witness_FetchFaultTaken :
    { base with pc := 0x20000000#32 }.ie = false ∧
    (fetchTranslation { base with pc := 0x20000000#32 }).result = .error .invalidPhysical ∧
    { paged with pc := 0x402000#32 }.ie = false ∧
    (fetchTranslation { paged with pc := 0x402000#32 }).result = .error .pageFault := by decide

theorem test_reset_inv : State.reset.Inv where
  pcAligned := by decide
  pflagsReserved := by decide
  memWf := by decide
  memInRam := by simp [State.reset, State.resetWith]
  l2InRam := by simp [State.reset, State.resetWith, Versions.InRam]
  l1iInRam := by simp [State.reset, State.resetWith, Versions.InRam]
  fetchSeesL2 := by simp [State.reset, State.resetWith]

theorem test_witness_ParametersNeverChange :
    ∃ t, step { State.reset with params := otherEpc } = .next t ∧ (t.pc == 16#32) = true := next_of_after (by decide)

theorem test_witness_StepKeepsInv : State.reset.Inv ∧ ∃ t, step State.reset = .next t ∧ (t.pc == 16#32) = true :=
  ⟨test_reset_inv, next_of_after (by decide)⟩

/-- A step that stays in user mode, and one that traps. -/
theorem test_witness_UserModeIsolation :
    { addPacket with mode := .user }.mode = .user ∧
    (∃ t, step { addPacket with mode := .user } = .next t ∧ (t.mode == .user) = true) ∧
    (∃ t, step (withPacket { base with mode := .user } 0xD1200000#32 filler filler filler) = .next t ∧
      (t.mode == .kernel) = true) :=
  ⟨by decide, next_of_after (by decide), next_of_after (by decide)⟩

/-- PTB <- R1 in kernel mode. -/
theorem test_witness_KernelRegistersChangeOnlyByMtc :
    ∃ t, step (withPacket (withRegs base [(1, 0x5000#32)]) 0xD1700021#32 filler filler filler) = .next t ∧
      (t.readCpr .ptb != (withPacket (withRegs base [(1, 0x5000#32)]) 0xD1700021#32 filler filler filler).readCpr .ptb) =
        true := next_of_after (by decide)

/-- R1 <- *ll(R2). -/
theorem test_witness_LinkSetOnlyByLl :
    (withPacket base 0xD2000C22#32 filler filler filler).link = false ∧
    ∃ t, step (withPacket base 0xD2000C22#32 filler filler filler) = .next t ∧ t.link = true :=
  ⟨by decide, next_of_after (f := fun t => t.link) (by decide)⟩

end Sys2Proof.Tests
end

section
/-! PROOFS. The parameters of 00_scope.md R5 through a step: they are a field of the state that no pending
write, no TLB fill, no trap entry and nothing between steps writes (log 35). -/

namespace Sys2Proof.Machine

/-! Committing. -/

/-- No pending write, whatever it writes, is a write of a parameter. -/
@[simp] theorem Write.apply_params (s : State) (w : Write) : (w.apply s).params = s.params := by
  cases w with
  | reg r v => exact writeReg_params s r v
  | pred n b => exact writePred_params s n b
  | ovf v => rfl
  | cpr c v => exact writeCpr_params s c v
  | store pa sz v => exact commitStore_params s pa sz v
  | event e => exact logEvent_params s e
  | link b => rfl
  | pc target => rfl
  | trapReturn => exact Machine.trapReturn_params s
  | flushData pa => exact flushDataLine_params s pa
  | flushInst pa => exact flushInstLine_params s pa
  | flushTlb which vpage => exact flushTlbPage_params s which vpage

@[simp] theorem foldl_writeApply_params (ws : List Write) (s : State) :
    (ws.foldl Write.apply s).params = s.params := by
  induction ws generalizing s with
  | nil => rfl
  | cons w ws ih => rw [List.foldl_cons, ih, Write.apply_params]

@[simp] theorem commit_params (ws : List Write) (s : State) : (commit ws s).params = s.params := by
  unfold commit
  split <;> simp

/-! Traps. -/

@[simp] theorem trapLanes_params (e0 e1 e2 e3 : Option Exn) (s : State) :
    (trapLanes e0 e1 e2 e3 s).params = s.params := trapEntry_params ..

@[simp] theorem trapNoLane_params (c : Word) (s : State) : (trapNoLane c s).params = s.params := trapEntry_params ..

/-! A packet and a step. -/

/-- A packet that goes on, by a trap or by a commit, leaves the parameters as they were. -/
theorem finishPacket_params {l0 l1 l2 l3 : Lane} {s t : State} (h : finishPacket l0 l1 l2 l3 s = .next t) :
    t.params = s.params := by
  obtain ⟨-, ⟨_, _, _, _, -, -, -, -, -, rfl⟩ | ⟨-, -, -, -, -, -, -, -, _, -, rfl⟩⟩ := finishPacket_next h
  · rw [trapLanes_params, applyFills_params]
  · rw [commit_params, applyFills_params]

theorem coreStep_params {s t : State} (h : coreStep s = .next t) : t.params = s.params := by
  obtain ⟨-, hint⟩ | ⟨f, -, -, hfault⟩ | ⟨pa, -, -, hrun⟩ := coreStep_cases s
  · obtain rfl := Host.Outcome.next.inj (hint.symm.trans h)
    exact trapNoLane_params ..
  · obtain rfl := Host.Outcome.next.inj (hfault.symm.trans h)
    rw [trapNoLane_params, afterFetch_params]
  · have hfinish := hrun.symm.trans h
    rw [runPacket] at hfinish
    rw [finishPacket_params hfinish, afterFetch_params]

/-- Settles O60: the core keeps the parameters, by a trap or by a packet, and so does what happens between steps. -/
theorem parametersNeverChange : Obligations.ParametersNeverChange := by
  intro s t h
  obtain ⟨u, hcore, rfl⟩ := step_next h
  rw [betweenSteps_params, coreStep_params hcore]

end Sys2Proof.Machine
end

section
/-! PROOFS. What a packet and a step may write, said once (40_packet_execution.md R112 to R118): the layer that the
statements about every step rest on. -/

namespace Sys2Proof.Machine

/-! Alignment (20_memory.md R45, R46, R51). -/

/-- The low four bits of a word are 0 exactly where it is a multiple of 16. -/
theorem lowFour_eq_zero_iff (a : Word) : a.extractLsb' 0 4 = 0#4 ↔ a.toNat % 16 = 0 := by
  rw [← BitVec.toNat_inj]
  simp

/-- The next packet's address is a packet address (10_state.md R14). -/
theorem add_sixteen_aligned {a : Word} (h : a.extractLsb' 0 4 = 0#4) : (a + 16#32).extractLsb' 0 4 = 0#4 := by
  rw [lowFour_eq_zero_iff] at h ⊢
  rw [BitVec.toNat_add]
  simp only [BitVec.toNat_ofNat]
  omega

/-- RESET_PC is a packet address (10_state.md R32). -/
theorem resetPc_aligned (ps : Params) : ps.resetPc.extractLsb' 0 4 = 0#4 := by
  apply BitVec.eq_of_getLsbD_eq
  intro i hi
  rw [BitVec.getLsbD_extractLsb', Nat.zero_add, Params.resetPc, BitVec.getLsbD_append]
  simp [hi]

/-- The offset of an immediate branch is a multiple of 16 (30_encoding.md R107). -/
theorem branchImmOffset_aligned (off : BitVec 25) : (branchImmOffset off).extractLsb' 0 4 = 0#4 := by
  apply BitVec.eq_of_getLsbD_eq
  intro i hi
  simp only [branchImmOffset, BitVec.getLsbD_extractLsb', BitVec.getLsbD_signExtend, BitVec.getLsbD_append, Nat.zero_add]
  interval_cases i <;> simp

/-- An immediate branch from a packet address goes to a packet address (43_branch.md R160). -/
theorem branchImmTarget_aligned {pc : Word} (h : pc.extractLsb' 0 4 = 0#4) (off : BitVec 25) :
    (branchImmTarget pc off).extractLsb' 0 4 = 0#4 := by
  have hoff := branchImmOffset_aligned off
  rw [lowFour_eq_zero_iff] at h hoff ⊢
  rw [branchImmTarget, BitVec.toNat_add]
  omega

/-- The address that an access uses is a multiple of its size (20_memory.md R45). -/
theorem align_aligned (sz : Size) (ea : Word) : (sz.align ea).toNat % sz.bytes = 0 := by
  cases sz with
  | byte => exact Nat.mod_one _
  | half =>
    show (ea &&& 0xFFFFFFFE#32).toNat % 2 ^ 1 = 0
    rw [BitVec.toNat_and, Nat.and_mod_two_pow]
    simp
  | word =>
    show (ea &&& 0xFFFFFFFC#32).toNat % 2 ^ 2 = 0
    rw [BitVec.toNat_and, Nat.and_mod_two_pow]
    simp

/-- The address that a page base and a virtual address's offset make (20_memory.md R51, R53). -/
theorem toNat_pagedAddr (base : BitVec 20) (va : Word) :
    (base ++ pageOffset va).toNat = base.toNat * 4096 + va.toNat % 4096 := by
  have hoff : (pageOffset va).toNat = va.toNat % 4096 := by simp [pageOffset]
  rw [BitVec.toNat_append, ← Nat.shiftLeft_add_eq_or_of_lt (pageOffset va).isLt, Nat.shiftLeft_eq, hoff]

/-- A translation keeps the alignment of an access: the offset in the page is not translated (20_memory.md R51). -/
theorem translate_aligned {s : State} {tlb : List TlbEntry} {port : Port} {va pa : Word} {st : Bool} (sz : Size)
    (h : (translate s tlb port va st).result = .ok pa) (hva : va.toNat % sz.bytes = 0) : pa.toNat % sz.bytes = 0 := by
  have of_checkEntry {e : TlbEntry} (hc : checkEntry s e va st = .ok pa) : pa.toNat % sz.bytes = 0 := by
    obtain ⟨-, -, rfl⟩ := checkEntry_ok hc
    rw [toNat_pagedAddr]
    cases sz <;> simp only [Size.bytes] at hva ⊢ <;> omega
  cases hpg : s.pg with
  | false =>
    rw [translate_pg_off s tlb port va st hpg] at h
    cases h
    exact hva
  | true =>
    rcases translate_cases s tlb port va st hpg with ⟨e, -, ht⟩ | ⟨f, -, -, ht⟩ | ⟨e, -, -, ht⟩ <;> rw [ht] at h
    · exact of_checkEntry h
    · cases h
    · exact of_checkEntry h

/-- The physical address of a load or store is a multiple of its size (20_memory.md R45, R57). -/
theorem dataTranslation_aligned {s : State} {k : Fin 4} {sz : Size} {ea pa : Word} {st : Bool}
    (h : (dataTranslation s k sz ea st).result = .ok pa) : pa.toNat % sz.bytes = 0 :=
  translate_aligned sz (translateValid_ok.1 h).1 (align_aligned sz ea)

/-! What an executing instruction may write (40_packet_execution.md R114). -/

/-- The pending writes that instruction `i`, executing from `s`, can contribute. Only an MTC of kernel mode writes a
coprocessor register, only an ERET of kernel mode returns from a trap, only LL sets the link bit; stores are aligned, and
a branch from a packet address goes to one. -/
inductive MayWrite (i : Instr) (s : State) : Write → Prop where
  | reg (r : Reg) (v : Word) : MayWrite i s (.reg r v)
  | pred (n : PredReg) (b : Bool) : MayWrite i s (.pred n b)
  | ovf (v : Word) : MayWrite i s (.ovf v)
  | cpr {p : Pred} {n : CprNum} {rs : Reg} {c : Cpr} (hi : i = .mtc p n rs) (hc : cprOf n = some c)
      (hmode : s.mode = .kernel) : MayWrite i s (.cpr c (s.readReg rs))
  | store {pa : Word} {sz : Size} (v : Word) (hpa : pa.toNat % sz.bytes = 0) : MayWrite i s (.store pa sz v)
  | event (e : PeriphEvent) : MayWrite i s (.event e)
  | setLink {p : Pred} {off : BitVec 12} {rd rs : Reg} (hi : i = .ll p off rd rs) : MayWrite i s (.link true)
  | clearLink : MayWrite i s (.link false)
  | pc {target : Word} (h : s.pc.extractLsb' 0 4 = 0#4 → target.extractLsb' 0 4 = 0#4) : MayWrite i s (.pc target)
  | trapReturn {p : Pred} (hi : i = .eret p) (hmode : s.mode = .kernel) : MayWrite i s .trapReturn
  | flushData (pa : Word) : MayWrite i s (.flushData pa)
  | flushInst (pa : Word) : MayWrite i s (.flushInst pa)
  | flushTlb (which : TlbId) (vpage : BitVec 20) : MayWrite i s (.flushTlb which vpage)

/-- Every pending write of the lane is one that `i` may contribute. -/
def Lane.WritesOf (l : Lane) (i : Instr) (s : State) : Prop := ∀ w ∈ l.writes, MayWrite i s w

section Lanes
variable {i : Instr} {s : State} {k : Fin 4}

/-- A lane that writes nothing. -/
theorem Lane.writesOf_of_nil {l : Lane} (h : l.writes = []) : l.WritesOf i s := by
  simp [Lane.WritesOf, h]

theorem Lane.setReg_writesOf {rd : Reg} {v : Word} : (Lane.setReg rd v).WritesOf i s := by
  simp [Lane.WritesOf, Lane.setReg, MayWrite.reg]

theorem Lane.setPred_writesOf {pd : PredReg} {b : Bool} : (Lane.setPred pd b).WritesOf i s := by
  simp [Lane.WritesOf, Lane.setPred, MayWrite.pred]

theorem Lane.setRegOvf_writesOf {rd : Reg} {v o : Word} : (Lane.setRegOvf rd v o).WritesOf i s := by
  simp [Lane.WritesOf, Lane.setRegOvf, MayWrite.reg, MayWrite.ovf]

theorem Lane.branch_writesOf {target : Word} (h : s.pc.extractLsb' 0 4 = 0#4 → target.extractLsb' 0 4 = 0#4) :
    (Lane.branch target).WritesOf i s := by
  simp [Lane.WritesOf, Lane.branch, MayWrite.pc h]

theorem Lane.branchLink_writesOf {target : Word} (h : s.pc.extractLsb' 0 4 = 0#4 → target.extractLsb' 0 4 = 0#4) :
    (Lane.branchLink s target).WritesOf i s := by
  simp [Lane.WritesOf, Lane.branchLink, MayWrite.reg, MayWrite.pc h]

/-- Of the loads only LL sets the link bit (44_load_store.md R173). -/
theorem Lane.load_writesOf {sz : Size} {sets : Bool} {rd : Reg} {ea : Word}
    (hll : sets = true → ∃ p off rd rs, i = .ll p off rd rs) : (Lane.load s k sz sets rd ea).WritesOf i s := by
  rcases Lane.load_cases s k sz sets rd ea with ⟨f, -, hl⟩ | ⟨pa, -, hl⟩ <;> rw [hl]
  · exact Lane.writesOf_of_nil rfl
  · intro w hw
    rcases List.mem_cons.1 hw with rfl | hw
    · exact .reg ..
    rcases List.mem_append.1 hw with hevent | hlink
    · unfold loadEvents at hevent
      split at hevent
      · cases hevent
      · obtain rfl := List.mem_singleton.1 hevent
        exact .event _
    · split at hlink
      · next hsets =>
        obtain rfl := List.mem_singleton.1 hlink
        obtain ⟨p, off, rd, rs, hi⟩ := hll hsets
        exact .setLink hi
      · cases hlink

theorem Lane.store_writesOf {sz : Size} {m : Bool} {ea v : Word} : (Lane.store s k sz m ea v).WritesOf i s := by
  cases m with
  | true => exact Lane.writesOf_of_nil rfl
  | false =>
    rcases Lane.store_cases s k sz ea v with ⟨f, -, hl⟩ | ⟨pa, hpa, hl⟩ <;> rw [hl]
    · exact Lane.writesOf_of_nil rfl
    · simp [Lane.WritesOf, MayWrite.store v (dataTranslation_aligned hpa)]

theorem Lane.storeConditional_writesOf {m : Bool} {ea v : Word} :
    (Lane.storeConditional s k m ea v).WritesOf i s := by
  unfold Lane.storeConditional
  split
  · exact Lane.writesOf_of_nil rfl
  · dsimp only
    split
    · exact Lane.writesOf_of_nil rfl
    · next pa hpa =>
      have hstore := MayWrite.store (i := i) (s := s) v (dataTranslation_aligned hpa)
      cases hlink : s.link <;> simp [Lane.WritesOf, hstore, MayWrite.pred, MayWrite.clearLink]

theorem Lane.flushLine_writesOf {which : TlbId} {write : Word → Write} {va : Word} {t : Translation}
    (h : ∀ pa, MayWrite i s (write pa)) : (Lane.flushLine which write va t).WritesOf i s := by
  unfold Lane.flushLine
  split
  · exact Lane.writesOf_of_nil rfl
  · simp [Lane.WritesOf, h]

/-- A privileged instruction writes in kernel mode only (60_exceptions.md R223). -/
theorem Lane.privileged_writesOf {l : Lane} (h : s.mode = .kernel → l.WritesOf i s) : (l.privileged s).WritesOf i s := by
  unfold Lane.privileged
  cases hmode : s.mode with
  | user => exact Lane.writesOf_of_nil rfl
  | kernel => exact h hmode

theorem laneDiv_writesOf {sg : Bool} {rt : Reg} {wide : Bool} {rd rs : Reg} :
    (laneDiv sg rt wide rd rs s).WritesOf i s := by
  unfold laneDiv
  split
  · exact Lane.writesOf_of_nil rfl
  · exact Lane.setRegOvf_writesOf

theorem laneMthi_writesOf {rs : Reg} : (laneMthi rs s).WritesOf i s := by
  simp [Lane.WritesOf, laneMthi, MayWrite.ovf]

theorem laneFlush_writesOf {c : Bool} {ty : FlushType} {rs : Reg} : (laneFlush c ty rs k s).WritesOf i s := by
  cases c with
  | true => exact Lane.writesOf_of_nil rfl
  | false =>
    cases ty with
    | data => exact Lane.flushLine_writesOf .flushData
    | inst => exact Lane.flushLine_writesOf .flushInst
    | dtlb | itlb => simp [Lane.WritesOf, laneFlush, Lane.flush, MayWrite.flushTlb]

theorem laneMfc_writesOf {rd : Reg} {n : CprNum} : (laneMfc rd n s).WritesOf i s := by
  unfold laneMfc
  split
  · exact Lane.writesOf_of_nil rfl
  · exact Lane.privileged_writesOf fun _ => Lane.setReg_writesOf

theorem laneMtc_writesOf {p : Pred} {n : CprNum} {rs : Reg} : (laneMtc n rs s).WritesOf (.mtc p n rs) s := by
  unfold laneMtc
  split
  · exact Lane.writesOf_of_nil rfl
  · next c hc =>
    exact Lane.privileged_writesOf fun hmode => by simp [Lane.WritesOf, MayWrite.cpr rfl hc hmode]

theorem laneEret_writesOf {p : Pred} : (laneEret s).WritesOf (.eret p) s :=
  Lane.privileged_writesOf fun hmode => by simp [Lane.WritesOf, MayWrite.trapReturn rfl hmode]

end Lanes

/-- Every instruction writes only what it may, in whichever slot it is. -/
theorem issue_writesOf (i : Instr) (k : Fin 4) (s : State) : (issue i k s).WritesOf i s := by
  cases i with
  | addShort | addReg | addLong | andShort | andReg | andLong | norShort | norReg | norLong | orShort | orReg | orLong
  | subShort | subReg | subLong | rsbShort | rsbReg | rsbLong | xorShort | xorReg | xorLong | movShort | movReg
  | movRegsh | movLong | mvnShort | mvnReg | mvnRegsh | mvnLong | sxbShort | sxbReg | sxbRegsh | sxbLong | sxhShort
  | sxhReg | sxhRegsh | sxhLong | mfhi => exact Lane.setReg_writesOf
  | cmpltuShort | cmpltuReg | cmpltuLong | cmpleuShort | cmpleuReg | cmpleuLong | cmpeqShort | cmpeqReg | cmpeqLong
  | cmpltsShort | cmpltsReg | cmpltsLong | cmplesShort | cmplesReg | cmplesLong | cmpbsShort | cmpbsReg | cmpbsLong
  | cmpbcShort | cmpbcReg | cmpbcLong => exact Lane.setPred_writesOf
  | lb | lh | lw => exact Lane.load_writesOf nofun
  | ll p off rd rs => exact Lane.load_writesOf fun _ => ⟨p, off, rd, rs, rfl⟩
  | sb | sh | sw => exact Lane.store_writesOf
  | sc => exact Lane.storeConditional_writesOf
  | bImm p off => exact Lane.branch_writesOf fun h => branchImmTarget_aligned h off
  | blImm p off => exact Lane.branchLink_writesOf fun h => branchImmTarget_aligned h off
  | bReg => exact Lane.branch_writesOf fun _ => packetAddr_aligned _
  | blReg => exact Lane.branchLink_writesOf fun _ => packetAddr_aligned _
  | brk | syscall | fence => exact Lane.writesOf_of_nil rfl
  | eret => exact laneEret_writesOf
  | flush => exact laneFlush_writesOf
  | mfc => exact laneMfc_writesOf
  | mtc => exact laneMtc_writesOf
  | mult => exact Lane.setRegOvf_writesOf
  | div => exact laneDiv_writesOf
  | mthi => exact laneMthi_writesOf

/-! What a packet may write (40_packet_execution.md R112, R113, R114). -/

/-- A pending write of a packet: one of an executing instruction in a slot that it may occupy, or the register write of a
load that MEM_LANE_ORDER puts after a store (20_memory.md R71). -/
def PacketMayWrite (pk : Packet) (s : State) (w : Write) : Prop :=
  (∃ r v, w = .reg r v) ∨
    ∃ k i, slotAt pk k = .instr i ∧ s.holds i.pred = true ∧ mayOccupy i k = true ∧ MayWrite i s w

/-- A slot that writes holds an instruction that executes where it may. -/
theorem laneAt_mayWrite {pk : Packet} {s : State} {k : Fin 4} {w : Write} (h : w ∈ (laneAt pk s k).writes) :
    PacketMayWrite pk s w := by
  unfold laneAt slotLane at h
  split at h
  · cases h
  · next p _ _ => cases hp : s.holds p <;> simp [Lane.gate, hp, Lane.unexecuted, Lane.illegal] at h
  · next i hslot =>
    cases hp : s.holds i.pred with
    | false => simp [Lane.gate, hp, Lane.unexecuted] at h
    | true =>
      rw [Lane.gate_of_holds _ _ _ hp] at h
      split at h
      · next hk => exact .inr ⟨k, i, hslot, hp, hk, issue_writesOf i k s w h⟩
      · cases h

/-- The writes of the memory slots are those of the two slots, but for the register of a load that goes second. -/
theorem memoryWrites_mem {l0 l1 : Lane} {s : State} {ws : List Write} {w : Write}
    (h : memoryWrites l0 l1 s = some ws) (hw : w ∈ ws) :
    (∃ r v, w = .reg r v) ∨ w ∈ l0.writes ∨ w ∈ l1.writes := by
  have of_second {first : List Write} {l : Lane} {k : Fin 4} (hl : w ∈ l.writesAfter first k s) :
      (∃ r v, w = .reg r v) ∨ w ∈ l.writes := by
    rcases Lane.writesAfter_cases first l k s with he | ⟨r, v, he⟩ <;> rw [he] at hl
    · exact .inr hl
    · exact (List.mem_cons.1 hl).imp (fun h => ⟨r, v, h⟩) List.mem_of_mem_drop
  rcases memoryWrites_cases h with rfl | ⟨-, rfl⟩ | ⟨-, rfl⟩
  · exact .inr (List.mem_append.1 hw)
  · rcases List.mem_append.1 hw with h0 | h1
    · exact .inr (.inl h0)
    · exact (of_second h1).imp_right .inr
  · rcases List.mem_append.1 hw with h1 | h0
    · exact .inr (.inr h1)
    · exact (of_second h0).imp_right .inl

/-- A packet that goes on enters a trap, or commits writes that it may contribute; walks' entries go into the TLBs either
way. -/
theorem runPacket_next {pk : Packet} {s t : State} (h : runPacket pk s = .next t) :
    (∃ e0 e1 e2 e3 fs, t = trapLanes e0 e1 e2 e3 (applyFills fs s)) ∨
      ∃ ws fs, t = commit ws (applyFills fs s) ∧ ∀ w ∈ ws, PacketMayWrite pk s w := by
  obtain ⟨-, ⟨e0, e1, e2, e3, -, -, -, -, -, rfl⟩ | ⟨-, -, -, -, -, -, -, -, ws, hws, rfl⟩⟩ := finishPacket_next h
  · exact .inl ⟨e0, e1, e2, e3, _, rfl⟩
  · refine .inr ⟨_, _, rfl, fun w hw => ?_⟩
    rcases List.mem_append.1 hw with hw | h3
    · rcases List.mem_append.1 hw with h01 | h2
      · rcases memoryWrites_mem hws h01 with hreg | h0 | h1
        · exact .inl hreg
        · exact laneAt_mayWrite (k := 0) h0
        · exact laneAt_mayWrite (k := 1) h1
      · exact laneAt_mayWrite (k := 2) h2
    · exact laneAt_mayWrite (k := 3) h3

/-- Everything a core step that goes on can have done: it entered a trap, or it committed writes that the fetched packet may
contribute, from a state that differs from `s` at most in its TLBs. -/
theorem coreStep_next {s t : State} (h : coreStep s = .next t) :
    ∃ dtlb itlb,
      (∃ c0 c1 c2 c3 a0 a1, t = trapEntry c0 c1 c2 c3 a0 a1 { s with dtlb := dtlb, itlb := itlb }) ∨
      ∃ pa ws, (fetchTranslation s).result = .ok pa ∧ t = commit ws { s with dtlb := dtlb, itlb := itlb } ∧
        ∀ w ∈ ws, PacketMayWrite (fetchedPacket s pa) (afterFetch s) w := by
  obtain ⟨-, hint⟩ | ⟨f, -, -, hfault⟩ | ⟨pa, -, hpa, hrun⟩ := coreStep_cases s
  · obtain rfl := Host.Outcome.next.inj (hint.symm.trans h)
    exact ⟨s.dtlb, s.itlb, .inl ⟨_, _, _, _, _, _, rfl⟩⟩
  · obtain rfl := Host.Outcome.next.inj (hfault.symm.trans h)
    exact ⟨(afterFetch s).dtlb, (afterFetch s).itlb, .inl ⟨_, _, _, _, _, _, rfl⟩⟩
  · obtain ⟨e0, e1, e2, e3, fs, rfl⟩ | ⟨ws, fs, rfl, hws⟩ := runPacket_next (hrun.symm.trans h)
    · exact ⟨(applyFills fs (afterFetch s)).dtlb, (applyFills fs (afterFetch s)).itlb, .inl ⟨_, _, _, _, _, _, rfl⟩⟩
    · exact ⟨(applyFills fs (afterFetch s)).dtlb, (applyFills fs (afterFetch s)).itlb, .inr ⟨pa, ws, hpa, rfl, hws⟩⟩

/-- Commit keeps what pc's advance, every pending write and, where LL stands beside ERET, the draw of the link bit keep
(40_packet_execution.md R114, log 21). -/
theorem commit_keeps {P : State → Prop} {ws : List Write} {s : State} (hnext : P { s with pc := s.pc + 16#32 })
    (hws : ∀ w ∈ ws, ∀ u, P u → P (w.apply u))
    (hlink : linkClash ws = true → ∀ (u : State) (b : Bool), P u → P { u with link := b }) : P (commit ws s) := by
  have hwritten := List.foldlRecOn (motive := P) ws Write.apply hnext fun u hu w hw => hws w hw u hu
  unfold commit
  split
  · next hclash => exact hlink hclash _ _ hwritten
  · exact hwritten

end Sys2Proof.Machine
end

section
/-! PROOFS. The invariant of the state, at reset and through a step (10_state.md R13, R20, R32; 20_memory.md R46, R62,
R68). -/

namespace Sys2Proof.Machine

/-- The invariant speaks of memory and of two bit fields, and of nothing else. -/
theorem State.Inv.of_sameMemory {s t : State} (h : s.Inv) (hpc : t.pc.extractLsb' 0 4 = 0#4)
    (hpflags : t.pflags.extractLsb' 2 30 = 0#30) (hmem : t.mem = s.mem) (hl2 : t.l2Old = s.l2Old)
    (hl1i : t.l1iOld = s.l1iOld) : t.Inv where
  pcAligned := hpc
  pflagsReserved := hpflags
  memWf := hmem ▸ h.memWf
  memInRam := hmem ▸ h.memInRam
  l2InRam := hl2 ▸ h.l2InRam
  l1iInRam := hl1i ▸ h.l1iInRam
  fetchSeesL2 := by rw [hl2, hl1i]; exact h.fetchSeesL2

/-- The word that a RAM address lies in is a word of RAM (20_memory.md R62). -/
theorem wordAddr_inRam {pa : Word} (h : isRam pa = true) : wordAddr pa % 4 = 0 ∧ wordAddr pa < 0x20000000 := by
  have hpa : pa.toNat < 0x20000000 := by simpa [isRam] using h
  unfold wordAddr
  omega

theorem Versions.InRam.add {vs : Versions} {a : Nat} {w : Word} (h : vs.InRam) (ha : a % 4 = 0 ∧ a < 0x20000000) :
    (vs.add a w).InRam := by
  intro v hv
  rcases Versions.mem_add.1 hv with rfl | hv
  · exact ha
  · exact h v hv

/-- An aligned store to RAM lists no byte outside RAM, and keeps the older value for walks and fetches alike
(20_memory.md R62, R68). -/
theorem storeRam_inv {s : State} {pa : Word} {sz : Size} (v : Word) (h : s.Inv) (hram : isRam pa = true)
    (hpa : pa.toNat % sz.bytes = 0) : (s.storeRam pa sz v).Inv where
  pcAligned := h.pcAligned
  pflagsReserved := h.pflagsReserved
  memWf := Memory.writeSized_wf _ _ _ _ h.memWf
  memInRam := Memory.writeSized_bound h.memInRam (aligned_in_ram sz pa hram hpa)
  l2InRam := h.l2InRam.add (wordAddr_inRam hram)
  l1iInRam := h.l1iInRam.add (wordAddr_inRam hram)
  fetchSeesL2 := fun u hu => Versions.mem_add.2 ((Versions.mem_add.1 hu).imp_right (h.fetchSeesL2 u))

theorem commitStore_inv {s : State} {pa : Word} {sz : Size} (v : Word) (h : s.Inv) (hpa : pa.toNat % sz.bytes = 0) :
    (s.commitStore pa sz v).Inv := by
  rcases commitStore_cases s pa sz v with ⟨hram, he⟩ | ⟨-, he⟩ <;> rw [he]
  · exact storeRam_inv v h hram hpa
  · exact h.of_sameMemory h.pcAligned h.pflagsReserved rfl rfl rfl

theorem flushDataLine_inv {s : State} (pa : Word) (h : s.Inv) : (s.flushDataLine pa).Inv where
  pcAligned := h.pcAligned
  pflagsReserved := h.pflagsReserved
  memWf := h.memWf
  memInRam := h.memInRam
  l2InRam := fun v hv => h.l2InRam v (Versions.mem_dropLine.1 hv).1
  l1iInRam := h.l1iInRam
  fetchSeesL2 := fun v hv => h.fetchSeesL2 v (Versions.mem_dropLine.1 hv).1

/-- After FLUSH.INST a fetch still sees what L2 may hold: of the flushed line from L2, of every other line as before
(46_system.md R204, 20_memory.md R68). -/
theorem flushInstLine_inv {s : State} (pa : Word) (h : s.Inv) : (s.flushInstLine pa).Inv where
  pcAligned := h.pcAligned
  pflagsReserved := h.pflagsReserved
  memWf := h.memWf
  memInRam := h.memInRam
  l2InRam := h.l2InRam
  l1iInRam := fun v hv => by
    rcases List.mem_append.1 hv with hkept | hfromL2
    · exact h.l1iInRam v (Versions.mem_dropLine.1 hkept).1
    · exact h.l2InRam v (Versions.mem_inLine.1 hfromL2).1
  fetchSeesL2 := fun v hv => by
    by_cases hline : lineOf v.1 = lineOf pa.toNat
    · exact List.mem_append_right _ (Versions.mem_inLine.2 ⟨hv, hline⟩)
    · exact List.mem_append_left _ (Versions.mem_dropLine.2 ⟨h.fetchSeesL2 v hv, hline⟩)

/-- A coprocessor write keeps the invariant: of PFLAGS it writes bits 1:0 only (10_state.md R20). -/
theorem writeCpr_inv {s : State} (c : Cpr) (v : Word) (h : s.Inv) : (s.writeCpr c v).Inv := by
  refine h.of_sameMemory (by simpa using h.pcAligned) ?_ (by simp) (by simp) (by simp)
  cases c with
  | pflags => exact pflagsMask_reserved v
  | _ => exact h.pflagsReserved

theorem trapReturn_inv {s : State} (h : s.Inv) : (trapReturn s).Inv :=
  h.of_sameMemory (packetAddr_aligned _) (setIe_reserved s _ h.pflagsReserved) rfl rfl rfl

theorem trapEntry_inv (c0 c1 c2 c3 : Word) (a0 a1 : Option Word) {s : State} (h : s.Inv) :
    (trapEntry c0 c1 c2 c3 a0 a1 s).Inv :=
  h.of_sameMemory (packetAddr_aligned _) (setIe_reserved s _ h.pflagsReserved) rfl rfl rfl

/-- Every write of an instruction at a packet address keeps the invariant, whatever was written before it. -/
theorem MayWrite.apply_inv {i : Instr} {s u : State} {w : Write} (hw : MayWrite i s w)
    (hpc : s.pc.extractLsb' 0 4 = 0#4) (h : u.Inv) : (w.apply u).Inv := by
  cases hw with
  | reg | ovf | event | setLink | clearLink => exact h.of_sameMemory h.pcAligned h.pflagsReserved rfl rfl rfl
  | pred n b =>
    exact h.of_sameMemory (by simpa [Write.apply] using h.pcAligned) (by simpa [Write.apply] using h.pflagsReserved)
      (by simp [Write.apply]) (by simp [Write.apply]) (by simp [Write.apply])
  | cpr => exact writeCpr_inv _ _ h
  | store v hpa => exact commitStore_inv v h hpa
  | pc htarget => exact h.of_sameMemory (htarget hpc) h.pflagsReserved rfl rfl rfl
  | trapReturn => exact trapReturn_inv h
  | flushData pa => exact flushDataLine_inv pa h
  | flushInst pa => exact flushInstLine_inv pa h
  | flushTlb which => cases which <;> exact h.of_sameMemory h.pcAligned h.pflagsReserved rfl rfl rfl

theorem PacketMayWrite.apply_inv {pk : Packet} {s u : State} {w : Write} (hw : PacketMayWrite pk s w)
    (hpc : s.pc.extractLsb' 0 4 = 0#4) (h : u.Inv) : (w.apply u).Inv := by
  obtain ⟨r, v, rfl⟩ | ⟨k, i, -, -, -, hi⟩ := hw
  · exact h.of_sameMemory h.pcAligned h.pflagsReserved rfl rfl rfl
  · exact hi.apply_inv hpc h

theorem commit_inv {ws : List Write} {s : State} (h : s.Inv) (hws : ∀ w ∈ ws, ∀ u : State, u.Inv → (w.apply u).Inv) :
    (commit ws s).Inv :=
  commit_keeps (h.of_sameMemory (add_sixteen_aligned h.pcAligned) h.pflagsReserved rfl rfl rfl) hws
    fun _ _ _ hu => hu.of_sameMemory hu.pcAligned hu.pflagsReserved rfl rfl rfl

theorem coreStep_inv {s t : State} (h : s.Inv) (hstep : coreStep s = .next t) : t.Inv := by
  have htlbs (dtlb itlb : List TlbEntry) : { s with dtlb := dtlb, itlb := itlb }.Inv :=
    h.of_sameMemory h.pcAligned h.pflagsReserved rfl rfl rfl
  obtain ⟨dtlb, itlb, ⟨c0, c1, c2, c3, a0, a1, rfl⟩ | ⟨pa, ws, -, rfl, hws⟩⟩ := coreStep_next hstep
  · exact trapEntry_inv c0 c1 c2 c3 a0 a1 (htlbs dtlb itlb)
  · exact commit_inv (htlbs dtlb itlb) fun w hw u hu => (hws w hw).apply_inv h.pcAligned hu

/-- Settles O56: traps and every write that a packet may contribute keep the invariant, and nothing between steps touches
what it speaks of. -/
theorem stepKeepsInv : Obligations.StepKeepsInv := by
  intro s t h hstep
  obtain ⟨u, hcore, rfl⟩ := step_next hstep
  have hu := coreStep_inv h hcore
  exact hu.of_sameMemory hu.pcAligned hu.pflagsReserved rfl rfl rfl

/-- Settles O55: pc is RESET_PC, whose low four bits are 0, and nothing is listed yet. -/
theorem invAtReset : Obligations.InvAtReset := by
  intro ps
  exact
    { pcAligned := resetPc_aligned ps
      pflagsReserved := BitVec.extractLsb'_zero
      memWf := rfl
      memInRam := nofun
      l2InRam := nofun
      l1iInRam := nofun
      fetchSeesL2 := nofun }

/-- Settles O54: every field as `State.resetWith` lists it; RESET_PC is aligned because its low four bits are no
parameter. -/
theorem resetValues : Obligations.ResetValues :=
  ⟨fun ps => ⟨resetPc_aligned ps, rfl, rfl, rfl, rfl, rfl, rfl, rfl, rfl, rfl, rfl⟩, rfl⟩

end Sys2Proof.Machine
end

section
/-! PROOFS. Which instructions change the kernel's registers and set the link bit, and what an undefined coprocessor
number does (10_state.md R18, R21, R22, R26, R28). -/

namespace Sys2Proof.Machine

/-! The kernel's registers (10_state.md R21, R22, R26). -/

/-- A pending write changes a coprocessor register other than PFLAGS only if it is the write of an MTC to it. -/
theorem Write.apply_readCpr {c : Cpr} (hc : c ≠ .pflags) (u : State) (w : Write) :
    (w.apply u).readCpr c = u.readCpr c ∨ w = .cpr c ((w.apply u).readCpr c) := by
  cases w with
  | cpr d v =>
    have hread := readCpr_writeCpr u d c v
    by_cases hd : c = d
    · subst hd
      rw [if_pos rfl, if_neg hc] at hread
      exact .inr (congrArg (Write.cpr c) hread.symm)
    · rw [if_neg hd] at hread
      exact .inl hread
  | trapReturn =>
    left
    cases c with
    | pflags => exact absurd rfl hc
    | _ => rfl
  | pred n b => left; cases c <;> simp [State.readCpr, Write.apply]
  | store pa sz v => left; cases c <;> simp [State.readCpr, Write.apply]
  | flushTlb which vpage => left; cases which <;> rfl
  | reg | ovf | event | link | pc | flushData | flushInst => exact .inl rfl

/-- After a commit a coprocessor register other than PFLAGS is as before, or holds what an MTC wrote. -/
theorem commit_readCpr {c : Cpr} (hc : c ≠ .pflags) (ws : List Write) (s : State) :
    (commit ws s).readCpr c = s.readCpr c ∨ .cpr c ((commit ws s).readCpr c) ∈ ws := by
  refine commit_keeps (P := fun u => u.readCpr c = s.readCpr c ∨ Write.cpr c (u.readCpr c) ∈ ws) (.inl rfl)
    (fun w hw u hu => ?_) fun _ _ _ hu => hu
  rcases Write.apply_readCpr hc u w with hkept | hwrote
  · rwa [hkept]
  · exact .inr (hwrote ▸ hw)

/-- Only an MTC of kernel mode in slot 0 writes a coprocessor register (40_packet_execution.md R112). -/
theorem PacketMayWrite.of_cpr {pk : Packet} {s : State} {c : Cpr} {v : Word} (h : PacketMayWrite pk s (.cpr c v)) :
    s.mode = .kernel ∧ ∃ p n rs, pk.slot0 = .instr (.mtc p n rs) ∧ s.holds p = true ∧ cprOf n = some c ∧
      v = s.readReg rs := by
  obtain ⟨r, v, he⟩ | ⟨k, i, hslot, hp, hk, hi⟩ := h
  · cases he
  · cases hi with
    | cpr hmtc hc hmode =>
      subst hmtc
      obtain rfl : k = 0 := Fin.ext (of_decide_eq_true hk)
      exact ⟨hmode, _, _, _, hslot, hp, hc, rfl⟩

/-- Settles O58: a trap leaves these registers alone, and a commit changes one only by an MTC. -/
theorem kernelRegistersChangeOnlyByMtc : Obligations.KernelRegistersChangeOnlyByMtc := by
  intro s t c hstep hc hchanged
  obtain ⟨u, hcore, rfl⟩ := step_next hstep
  obtain ⟨dtlb, itlb, ⟨c0, c1, c2, c3, a0, a1, rfl⟩ | ⟨pa, ws, hpa, rfl, hws⟩⟩ := coreStep_next hcore
  · refine absurd ?_ hchanged
    simp only [List.mem_cons, List.not_mem_nil, or_false] at hc
    rcases hc with rfl | rfl | rfl | rfl | rfl | rfl <;> rfl
  · have hne : c ≠ .pflags := by rintro rfl; simp at hc
    rcases commit_readCpr hne ws { s with dtlb := dtlb, itlb := itlb } with hkept | hwrote
    · exact absurd hkept hchanged
    · obtain ⟨hmode, p, n, rs, hslot, hp, hcpr, hv⟩ := (hws _ hwrote).of_cpr
      exact ⟨hmode, pa, p, n, rs, hpa, hslot, hp, hcpr, hv⟩

/-! The link bit (10_state.md R18). -/

/-- A pending write that is no LL's leaves a clear link bit clear. -/
theorem Write.apply_link {u : State} {w : Write} (hw : w ≠ .link true) (hu : u.link = false) :
    (w.apply u).link = false := by
  cases w with
  | link b =>
    cases b with
    | true => exact absurd rfl hw
    | false => rfl
  | trapReturn => rfl
  | pred n b => exact (writePred_link u n b).trans hu
  | cpr c v => exact (writeCpr_link u c v).trans hu
  | store pa sz v => exact (commitStore_link u pa sz v).trans hu
  | flushTlb which vpage => exact (flushTlbPage_link u which vpage).trans hu
  | reg | ovf | event | pc | flushData | flushInst => exact hu

/-- A commit without an LL leaves a clear link bit clear, the draw of log 21 included. -/
theorem commit_link {ws : List Write} {s : State} (hws : .link true ∉ ws) (hs : s.link = false) :
    (commit ws s).link = false := by
  refine commit_keeps (P := fun u => u.link = false) hs
    (fun w hw _ hu => Write.apply_link (ne_of_mem_of_not_mem hw hws) hu) fun hclash => ?_
  simp [linkClash, hws] at hclash

/-- Only LL in slot 0 or 1 sets the link bit (40_packet_execution.md R112). -/
theorem PacketMayWrite.of_setLink {pk : Packet} {s : State} (h : PacketMayWrite pk s (.link true)) :
    ∃ p off rd rs, s.holds p = true ∧
      (pk.slot0 = .instr (.ll p off rd rs) ∨ pk.slot1 = .instr (.ll p off rd rs)) := by
  obtain ⟨r, v, he⟩ | ⟨k, i, hslot, hp, hk, hi⟩ := h
  · cases he
  · cases hi with
    | setLink hll =>
      subst hll
      have hk : k.val ≤ 1 := of_decide_eq_true hk
      match k with
      | 0 => exact ⟨_, _, _, _, hp, .inl hslot⟩
      | 1 => exact ⟨_, _, _, _, hp, .inr hslot⟩

/-- Settles O59: a trap clears the link bit, and a commit sets it only by an LL. -/
theorem linkSetOnlyByLl : Obligations.LinkSetOnlyByLl := by
  intro s t hstep hs ht
  obtain ⟨u, hcore, rfl⟩ := step_next hstep
  obtain ⟨dtlb, itlb, ⟨c0, c1, c2, c3, a0, a1, rfl⟩ | ⟨pa, ws, hpa, rfl, hws⟩⟩ := coreStep_next hcore
  · cases ht
  · have hll : .link true ∈ ws := by
      by_contra hno
      have hclear : (commit ws { s with dtlb := dtlb, itlb := itlb }).link = false := commit_link hno hs
      exact Bool.false_ne_true (hclear.symm.trans ht)
    obtain ⟨p, off, rd, rs, hp, hslot⟩ := (hws _ hll).of_setLink
    exact ⟨pa, p, off, rd, rs, hpa, hp, hslot⟩

/-! Undefined coprocessor numbers (10_state.md R28). -/

theorem cprOf_eq_none {n : CprNum} (h : (10 ≤ n.val ∧ n.val ≤ 15) ∨ 20 ≤ n.val) : cprOf n = none := by
  have hundefined : cprDefined n = false := by
    simp only [cprDefined, Bool.or_eq_false_iff, Bool.and_eq_false_iff, decide_eq_false_iff_not]
    omega
  rw [← cprOf_isSome] at hundefined
  simpa using hundefined

/-- A lone instruction that raises IllegalInstruction and fills no TLB takes the trap in lane 0, with nothing else. -/
theorem execAlone_illegal {p : Pred} {l : Lane} {s : State} (hp : s.holds p = true)
    (hexn : l.exn = some .illegalInstruction) (hrefusal : l.refusal = none) (hfills : l.fills = []) :
    ∃ t, execAlone p l s = .next t ∧ s.Trapped t 2#32 0#32 0#32 0#32 s.ea0 s.ea1 ∧ s.keepsTlbs t := by
  obtain ⟨t, hnext, htrapped, hdtlb, hitlb, -⟩ := execAlone_trapped p l s _ hp hexn hrefusal
  rw [hfills] at hdtlb hitlb
  exact ⟨t, hnext, htrapped, hdtlb, hitlb⟩

/-- Settles O41: the lanes of MFC and MTC of an undefined number raise IllegalInstruction before the mode is looked at. -/
theorem undefinedCprTraps : Obligations.UndefinedCprTraps := by
  intro p n r s hp hn
  have hnone := cprOf_eq_none hn
  have hmfc : laneMfc r n s = { exn := some .illegalInstruction, dests := [.reg r] } := by simp only [laneMfc, hnone]
  have hmtc : laneMtc n r s = Lane.illegal := by simp only [laneMtc, hnone]
  constructor
  · show ∃ t, execAlone p (laneMfc r n s) s = .next t ∧ _
    rw [hmfc]
    exact execAlone_illegal hp rfl rfl rfl
  · show ∃ t, execAlone p (laneMtc n r s) s = .next t ∧ _
    rw [hmtc]
    exact execAlone_illegal hp rfl rfl rfl

end Sys2Proof.Machine
end

section
/-! PROOFS. Translation: the physical-address check, alignment, the table walk, and translation with PG = 0 and PG = 1
(20_memory.md R45, R49 to R58, R62, R64). -/

namespace Sys2Proof.Machine

/-! The physical-address check (20_memory.md R62 to R64). -/

theorem isRam_iff {pa : Word} : isRam pa = true ↔ pa.toNat < 0x20000000 := by simp [isRam]

theorem validPhys_iff {pa : Word} : validPhys pa = true ↔ SpecAnswers pa := by
  simp [validPhys, isRam, SpecAnswers]

/-- No RAM address is one of the peripheral region (20_memory.md R62, R63). -/
theorem isRam_of_peripheral {pa : Word} (h : 0x80000000 ≤ pa.toNat) : isRam pa = false :=
  decide_eq_false (by omega)

/-- In the peripheral region the check asks whether the address answers (20_memory.md R64). -/
theorem validPhys_of_peripheral {pa : Word} (h : 0x80000000 ≤ pa.toNat) : validPhys pa = Config.periphValid pa := by
  simp [validPhys, isRam_of_peripheral h, h]

theorem validPhys_of_isRam {pa : Word} (h : isRam pa = true) : validPhys pa = true := by simp [validPhys, h]

theorem specValid_eq (pa : Word) :
    specValid pa = if validPhys pa = true then .ok pa else .error .invalidPhysical :=
  if_congr validPhys_iff.symm rfl rfl

/-- The check of the physical address is applied to what a translation gives (20_memory.md R57, R64). -/
theorem translateValid_of_ok {s : State} {tlb : List TlbEntry} {port : Port} {va pa : Word} {st : Bool}
    (h : (translate s tlb port va st).result = .ok pa) :
    translateValid s tlb port va st = { fill := (translate s tlb port va st).fill, result := specValid pa } := by
  simp only [translateValid, h, specValid_eq]

theorem translateValid_of_error {s : State} {tlb : List TlbEntry} {port : Port} {va : Word} {st : Bool} {f : MemFault}
    (h : (translate s tlb port va st).result = .error f) :
    translateValid s tlb port va st = { fill := (translate s tlb port va st).fill, result := .error f } := by
  simp only [translateValid, h]

/-! Alignment (20_memory.md R45). -/

/-- An access goes to its address rounded down to its size (20_memory.md R45). -/
theorem toNat_align (sz : Size) (ea : Word) : (sz.align ea).toNat = ea.toNat - ea.toNat % sz.bytes := by
  have drop_low (n : Nat) : (ea &&& BitVec.allOnes 32 <<< n).toNat = ea.toNat / 2 ^ n * 2 ^ n := by
    have hlt : ea.toNat / 2 ^ n * 2 ^ n < 2 ^ 32 := (Nat.div_mul_le_self ..).trans_lt ea.isLt
    rw [← BitVec.shiftLeft_ushiftRight, BitVec.toNat_shiftLeft, BitVec.toNat_ushiftRight, Nat.shiftRight_eq_div_pow,
      Nat.shiftLeft_eq, Nat.mod_eq_of_lt hlt]
  cases sz with
  | byte => simp [Size.align, Size.bytes, Nat.mod_one]
  | half => exact (drop_low 1).trans (by simp only [Size.bytes]; omega)
  | word => exact (drop_low 2).trans (by simp only [Size.bytes]; omega)

theorem align_eq_of_toNat {sz : Size} {ea va : Word} (h : va.toNat = ea.toNat - ea.toNat % sz.bytes) :
    sz.align ea = va :=
  BitVec.eq_of_toNat_eq ((toNat_align sz ea).trans h.symm)

/-! PG = 0 (20_memory.md R50). -/

theorem translateValid_pg_off {s : State} (hpg : s.pg = false) (tlb : List TlbEntry) (port : Port) (va : Word)
    (st : Bool) : translateValid s tlb port va st = { fill := none, result := specValid va } := by
  have ht := translate_pg_off s tlb port va st hpg
  have hres : (translate s tlb port va st).result = .ok va := by rw [ht]
  rw [translateValid_of_ok hres, ht]

/-- The check as one of two translations that leave no entry. -/
theorem specValid_cases (pa : Word) :
    ({ fill := none, result := specValid pa } : Translation) =
      if pa.toNat < 0x20000000 ∨ (0x80000000 ≤ pa.toNat ∧ Config.periphValid pa = true) then
        { fill := none, result := .ok pa }
      else { fill := none, result := .error .invalidPhysical } := by
  unfold specValid
  split <;> rfl

/-- Settles O21: with PG = 0 only the physical-address check is left of a translation. -/
theorem translationOff : Obligations.TranslationOff := by
  intro s hpg
  constructor
  · intro k sz ea st pa hpa
    rw [dataTranslation, align_eq_of_toNat hpa, translateValid_pg_off hpg, specValid_cases]
  · rw [fetchTranslation, translateValid_pg_off hpg, specValid_cases]

/-! PG = 1 (20_memory.md R54 to R58). -/

/-- The permission check in the words of 20_memory.md R54. -/
theorem checkEntry_eq (s : State) (e : TlbEntry) (va : Word) (st : Bool) :
    checkEntry s e va st =
      if (s.mode = .user ∧ e.u = false) ∨ (st = true ∧ e.w = false) then .error .pageFault
      else .ok (e.base ++ va.extractLsb' 0 12) := by
  unfold checkEntry
  refine if_congr ?_ rfl rfl
  simp only [Bool.or_eq_true, Bool.and_eq_true, decide_eq_true_eq, Bool.not_eq_true']
  tauto

/-- The entry that an access uses is one of the TLB's for the page (20_memory.md R58). -/
theorem tlbLookup_mem {s : State} {tlb : List TlbEntry} {port : Port} {va : Word} {e : TlbEntry}
    (h : tlbLookup s tlb port va = some e) : e ∈ tlb ∧ e.vpage = va.extractLsb' 12 20 := by
  obtain ⟨hmem, hpage⟩ := List.mem_filter.1 (List.mem_of_getElem? h)
  exact ⟨hmem, of_decide_eq_true hpage⟩

/-- A translation goes through an entry of the TLB or a walk, the physical address still unchecked. -/
theorem translate_translatesPaged {s : State} (hpg : s.pg = true) (tlb : List TlbEntry) (port : Port) (va : Word)
    (st : Bool) : s.TranslatesPaged tlb port va st .ok (translate s tlb port va st) := by
  obtain ⟨e, hlookup, ht⟩ | ⟨f, -, hwalk, ht⟩ | ⟨e, -, hwalk, ht⟩ := translate_cases s tlb port va st hpg <;> rw [ht]
  · exact .inl ⟨e, .inl (tlbLookup_mem hlookup), .inl rfl, checkEntry_eq s e va st⟩
  · exact .inr ⟨f, hwalk, rfl⟩
  · refine .inl ⟨e, .inr hwalk, ?_, checkEntry_eq s e va st⟩
    cases Config.tlbFills s.tick port with
    | false => exact .inl rfl
    | true => exact .inr ⟨hwalk, rfl⟩

/-- A translation with its physical address checked is a translation with the check of R64. -/
theorem translateValid_translatesPaged {s : State} (hpg : s.pg = true) (tlb : List TlbEntry) (port : Port) (va : Word)
    (st : Bool) : s.TranslatesPaged tlb port va st specValid (translateValid s tlb port va st) := by
  obtain ⟨e, he, hfill, hres⟩ | ⟨f, hwalk, ht⟩ := translate_translatesPaged hpg tlb port va st
  · refine .inl ⟨e, he, hfill, ?_⟩
    split at hres
    · rw [translateValid_of_error hres, if_pos ‹_›]
    · rw [translateValid_of_ok hres, if_neg ‹_›]
  · have hres : (translate s tlb port va st).result = .error f := by rw [ht]
    exact .inr ⟨f, hwalk, by rw [translateValid_of_error hres, ht]⟩

/-- Settles O22: the three translations are the same one, through the TLB and at the address of each. -/
theorem translationOn : Obligations.TranslationOn := by
  intro s hpg
  refine ⟨translate_translatesPaged hpg, fun k sz ea st va hva => ?_, translateValid_translatesPaged hpg ..⟩
  rw [dataTranslation, align_eq_of_toNat hva]
  exact translateValid_translatesPaged hpg ..

/-! The table walk (20_memory.md R49, R53). -/

theorem readEntry_of_not_answers {s : State} {port : Port} {level : Nat} {pa : Word} (h : ¬SpecAnswers pa) :
    readEntry s port level pa = none :=
  if_neg (mt validPhys_iff.1 h)

/-- At an address that answers a walk reads one of the words that R49 and R53 allow there. -/
theorem readEntry_of_answers {s : State} {port : Port} {level : Nat} {pa : Word} (h : SpecAnswers pa) :
    ∃ w, readEntry s port level pa = some w ∧ s.EntryAt port level pa w := by
  unfold readEntry
  rw [if_pos (validPhys_iff.2 h)]
  cases hram : isRam pa with
  | true =>
    have hlow := isRam_iff.1 hram
    exact ⟨_, rfl, fun _ => (admitted_cases ..).imp_right Versions.mem_at.1, fun hhigh => by omega⟩
  | false =>
    exact ⟨_, rfl, fun hlow => absurd (isRam_iff.2 hlow) (by simp [hram]), fun _ => rfl⟩

section Walk
variable {s : State} {port : Port} {va pde pte : Word}

theorem walk_of_pde_invalid (h : readEntry s port 0 (pageBase s.ptb ++ pdIndex va ++ 0#2) = none) :
    walk s port va = .error .invalidPhysical := by
  simp only [walk, h]

theorem walk_of_pde_notPresent (h : readEntry s port 0 (pageBase s.ptb ++ pdIndex va ++ 0#2) = some pde)
    (hp : entryP pde = false) : walk s port va = .error .pageFault := by
  simp only [walk, h, hp, if_true]

theorem walk_of_pte_invalid (hpde : readEntry s port 0 (pageBase s.ptb ++ pdIndex va ++ 0#2) = some pde)
    (hp : entryP pde = true) (h : readEntry s port 1 (pageBase pde ++ ptIndex va ++ 0#2) = none) :
    walk s port va = .error .invalidPhysical := by
  simp only [walk, hpde, hp, Bool.true_eq_false, if_false, h]

theorem walk_of_pte_notPresent (hpde : readEntry s port 0 (pageBase s.ptb ++ pdIndex va ++ 0#2) = some pde)
    (hp : entryP pde = true) (h : readEntry s port 1 (pageBase pde ++ ptIndex va ++ 0#2) = some pte)
    (hp' : entryP pte = false) : walk s port va = .error .pageFault := by
  simp only [walk, hpde, hp, Bool.true_eq_false, if_false, h, hp', if_true]

theorem walk_of_present (hpde : readEntry s port 0 (pageBase s.ptb ++ pdIndex va ++ 0#2) = some pde)
    (hp : entryP pde = true) (h : readEntry s port 1 (pageBase pde ++ ptIndex va ++ 0#2) = some pte)
    (hp' : entryP pte = true) :
    walk s port va = .ok
      { vpage := virtualPage va
        base := pageBase pte
        w := entryW pde && entryW pte
        u := entryU pde && entryU pte
        g := entryG pde || entryG pte } := by
  simp only [walk, hpde, hp, Bool.true_eq_false, if_false, h, hp']

end Walk

/-- Settles O23: each of the two reads gives an entry that R53 allows or none, and the walk goes on with it. -/
theorem tableWalk : Obligations.TableWalk := by
  rintro s port va pdeAddr rfl
  refine ⟨fun hno => walk_of_pde_invalid (readEntry_of_not_answers hno), fun hanswers => ?_⟩
  obtain ⟨pde, hpde, hadmitted⟩ := readEntry_of_answers (s := s) (port := port) (level := 0) hanswers
  refine ⟨pde, hadmitted, walk_of_pde_notPresent hpde, ?_⟩
  rintro pteAddr hp rfl
  refine ⟨fun hno => walk_of_pte_invalid hpde hp (readEntry_of_not_answers hno), fun hanswers' => ?_⟩
  obtain ⟨pte, hpte, hadmitted'⟩ := readEntry_of_answers (s := s) (port := port) (level := 1) hanswers'
  exact ⟨pte, hadmitted', walk_of_pte_notPresent hpde hp hpte, walk_of_present hpde hp hpte⟩

end Sys2Proof.Machine
end

section
/-! PROOFS. A memory instruction alone in its packet, in slot 0 or in slot 1 (40_packet_execution.md R112, R114): the trap
it takes or the writes it commits, and what each of the eight instructions contributes (44_load_store.md R170 to R179). -/

namespace Sys2Proof.Machine

/-! One lane beside three idle ones. -/

/-- Instruction `i` leads from `s` to `t`, alone in slot 0 (exec) and in slot `k` of a packet whose other slots contribute
nothing. -/
def RunsAlone (i : Instr) (k : Fin 4) (s t : State) : Prop :=
  (k = 0 → exec i s = .next t) ∧ ∀ pk, Only pk k i s → runPacket pk s = .next t

/-- An exec is the instruction's own lane, alone in slot 0. -/
theorem exec_eq_execAlone (i : Instr) (s : State) : exec i s = execAlone i.pred (issue i 0 s) s := by
  cases i <;> rfl

theorem mayOccupy_of_memory {i : Instr} {k : Fin 4} (hk : k.val ≤ 1) (hi : i.format.type = .memory) :
    mayOccupy i k = true := by
  simp [mayOccupy, hi, hk]

/-- The lane of an executing memory instruction in slot 0 or 1 (40_packet_execution.md R112, R113). -/
theorem laneAt_memory {pk : Packet} {s : State} {k : Fin 4} {i : Instr} (hk : k.val ≤ 1) (hi : i.format.type = .memory)
    (hp : s.holds i.pred = true) (h : slotAt pk k = .instr i) : laneAt pk s k = issue i k s := by
  simp [laneAt, h, slotLane, mayOccupy_of_memory hk hi, hp]

/-- The four lanes of a packet end it. -/
theorem runPacket_eq (pk : Packet) (s : State) :
    runPacket pk s = finishPacket (laneAt pk s 0) (laneAt pk s 1) (laneAt pk s 2) (laneAt pk s 3) s := rfl

/-- The lone lane in slot 1: it is refused, or traps, or commits what a second memory access commits
(20_memory.md R71). -/
theorem finishPacket_aloneInSlot1 (l : Lane) (s : State) (hr : l.refusal = none) :
    finishPacket Lane.idle l Lane.idle Lane.idle s =
      match l.exn with
      | some e => .next (trapLanes none (some e) none none (applyFills l.fills s))
      | none =>
        .next (commit (if s.params.memLaneOrder = some .slot0First then l.writesAfter [] 1 s else l.writes)
          (applyFills l.fills s)) := by
  unfold finishPacket firstRefusal memoryWrites
  cases he : l.exn with
  | some e => simp [Lane.idle, hr]
  | none =>
    rcases s.params.memLaneOrder with _ | _ | _ <;> simp [Lane.idle, hr, accessConflict]

/-- The state after an exception of slot 0 or 1, the other slots raising none. -/
def trapAt (k : Fin 4) (e : Exn) (s : State) : State :=
  trapLanes (if k = 0 then some e else none) (if k = 1 then some e else none) none none s

section Alone
variable {i : Instr} {k : Fin 4} {s : State}

/-- An instruction that raises takes the trap of its slot. -/
theorem runsAlone_trap {e : Exn} (hk : k.val ≤ 1) (hi : i.format.type = .memory) (hp : s.holds i.pred = true)
    (he : (issue i k s).exn = some e) (hr : (issue i k s).refusal = none) :
    RunsAlone i k s (trapAt k e (applyFills (issue i k s).fills s)) := by
  constructor
  · rintro rfl
    rw [exec_eq_execAlone, execAlone_trap _ _ _ e hp he hr]
    rfl
  · rintro pk ⟨hslot, hidle⟩
    have hlane := laneAt_memory hk hi hp hslot
    rw [runPacket_eq]
    match k, hk with
    | 0, _ =>
      rw [hlane, hidle 1 (by decide), hidle 2 (by decide), hidle 3 (by decide), finishPacket_alone, hr, he]
      rfl
    | 1, _ =>
      rw [hlane, hidle 0 (by decide), hidle 2 (by decide), hidle 3 (by decide), finishPacket_aloneInSlot1 _ _ hr, he]
      rfl

/-- An instruction that raises nothing commits its writes, in slot 1 too: there is no first access for its load to come
after. -/
theorem runsAlone_commit (hk : k.val ≤ 1) (hi : i.format.type = .memory) (hp : s.holds i.pred = true)
    (he : (issue i k s).exn = none) (hr : (issue i k s).refusal = none)
    (hafter : (issue i k s).writesAfter [] k s = (issue i k s).writes) :
    RunsAlone i k s (commit (issue i k s).writes (applyFills (issue i k s).fills s)) := by
  constructor
  · rintro rfl
    rw [exec_eq_execAlone, execAlone_commit _ _ _ hp he hr]
  · rintro pk ⟨hslot, hidle⟩
    have hlane := laneAt_memory hk hi hp hslot
    rw [runPacket_eq]
    match k, hk with
    | 0, _ => rw [hlane, hidle 1 (by decide), hidle 2 (by decide), hidle 3 (by decide), finishPacket_alone, hr, he]
    | 1, _ =>
      rw [hlane, hidle 0 (by decide), hidle 2 (by decide), hidle 3 (by decide), finishPacket_aloneInSlot1 _ _ hr, he,
        hafter, ite_self]

end Alone

/-! The trap of a failed data access (20_memory.md R57, 60_exceptions.md R225, R226, R237). -/

/-- The trap of a data access that failed in slot 0 or 1, in the words of R235 to R237. -/
theorem trapAt_trappedAt {k : Fin 4} (hk : k.val ≤ 1) (f : MemFault) (ea : Word) (fs : List Fill) (s : State) :
    s.TrappedAt (trapAt k (dataExn ea f) (applyFills fs s)) k (specCode f) ea := by
  match k, hk with
  | 0, _ => cases f <;> exact trapEntry_applyFills_trapped fs _ 0#32 0#32 0#32 (some ea) none s
  | 1, _ => cases f <;> exact trapEntry_applyFills_trapped fs 0#32 _ 0#32 0#32 none (some ea) s

theorem memoryFault_traps {i : Instr} {k : Fin 4} {s : State} {f : MemFault} {ea : Word} (hk : k.val ≤ 1)
    (hi : i.format.type = .memory) (hp : s.holds i.pred = true) (he : (issue i k s).exn = some (dataExn ea f))
    (hr : (issue i k s).refusal = none) : ∃ t, RunsAlone i k s t ∧ s.TrappedAt t k (specCode f) ea :=
  ⟨_, runsAlone_trap hk hi hp he hr, trapAt_trappedAt hk f ea _ s⟩

/-! The lanes, by the outcome of the translation. -/

section Lanes
variable {s : State} {k : Fin 4} {sz : Size} {sets : Bool} {rd : Reg} {ea v pa : Word} {f : MemFault}

theorem Lane.load_of_ok (h : (dataTranslation s k sz ea false).result = .ok pa) :
    Lane.load s k sz sets rd ea =
      { dests := [.reg rd]
        writes := .reg rd (loadValue s k pa sz) :: (loadEvents s k pa sz ++ if sets then [.link true] else [])
        fills := fillsOf .data (dataTranslation s k sz ea false)
        access := some { kind := if sets then .ll rd else .load rd, pa := pa, size := sz } } := by
  simp only [Lane.load, h]

theorem Lane.load_of_error (h : (dataTranslation s k sz ea false).result = .error f) :
    Lane.load s k sz sets rd ea =
      { exn := some (dataExn ea f), dests := [.reg rd],
        fills := fillsOf .data (dataTranslation s k sz ea false) } := by
  simp only [Lane.load, h]

theorem Lane.store_of_ok (h : (dataTranslation s k sz ea true).result = .ok pa) :
    Lane.store s k sz false ea v =
      { writes := [.store pa sz v]
        fills := fillsOf .data (dataTranslation s k sz ea true)
        access := some { kind := .store, pa := pa, size := sz } } := by
  simp only [Lane.store, h, Bool.false_eq_true, if_false]

theorem Lane.store_of_error (h : (dataTranslation s k sz ea true).result = .error f) :
    Lane.store s k sz false ea v =
      { exn := some (dataExn ea f), fills := fillsOf .data (dataTranslation s k sz ea true) } := by
  simp only [Lane.store, h, Bool.false_eq_true, if_false]

theorem Lane.storeConditional_of_ok (h : (dataTranslation s k .word ea true).result = .ok pa) :
    Lane.storeConditional s k false ea v =
      { dests := [.pred 0]
        writes :=
          if s.link then [.store pa .word v, .pred 0 true, .link false] else [.pred 0 false, .link false]
        fills := fillsOf .data (dataTranslation s k .word ea true)
        access := some { kind := .sc, pa := pa, size := .word } } := by
  simp only [Lane.storeConditional, h, Bool.false_eq_true, if_false]

theorem Lane.storeConditional_of_error (h : (dataTranslation s k .word ea true).result = .error f) :
    Lane.storeConditional s k false ea v =
      { exn := some (dataExn ea f), dests := [.pred 0],
        fills := fillsOf .data (dataTranslation s k .word ea true) } := by
  simp only [Lane.storeConditional, h, Bool.false_eq_true, if_false]

end Lanes

/-! The eight instructions. -/

/-- A load instruction of a size; `sets` is true for LL. -/
structure LoadForm (i : Pred → BitVec 12 → Reg → Reg → Instr) (sz : Size) (sets : Bool) : Prop where
  pred : ∀ p off rd rs, (i p off rd rs).pred = p
  type : ∀ p off rd rs, (i p off rd rs).format.type = .memory
  issue : ∀ p off rd rs k s, issue (i p off rd rs) k s = Lane.load s k sz sets rd (loadAddr (s.readReg rs) off)

theorem loadForm_lb : LoadForm .lb .byte false := ⟨fun _ _ _ _ => rfl, fun _ _ _ _ => rfl, fun _ _ _ _ _ _ => rfl⟩
theorem loadForm_lh : LoadForm .lh .half false := ⟨fun _ _ _ _ => rfl, fun _ _ _ _ => rfl, fun _ _ _ _ _ _ => rfl⟩
theorem loadForm_lw : LoadForm .lw .word false := ⟨fun _ _ _ _ => rfl, fun _ _ _ _ => rfl, fun _ _ _ _ _ _ => rfl⟩
theorem loadForm_ll : LoadForm .ll .word true := ⟨fun _ _ _ _ => rfl, fun _ _ _ _ => rfl, fun _ _ _ _ _ _ => rfl⟩

/-- A store instruction of a size, its M bit 0; SC is none of these. -/
structure StoreForm (i : Pred → BitVec 11 → Bool → Reg → Reg → Instr) (sz : Size) : Prop where
  pred : ∀ p off rt rs, (i p off false rt rs).pred = p
  type : ∀ p off rt rs, (i p off false rt rs).format.type = .memory
  issue : ∀ p off rt rs k s, issue (i p off false rt rs) k s =
    Lane.store s k sz false (storeAddr (s.readReg rs) off) (s.readReg rt)

theorem storeForm_sb : StoreForm .sb .byte := ⟨fun _ _ _ _ => rfl, fun _ _ _ _ => rfl, fun _ _ _ _ _ _ => rfl⟩
theorem storeForm_sh : StoreForm .sh .half := ⟨fun _ _ _ _ => rfl, fun _ _ _ _ => rfl, fun _ _ _ _ _ _ => rfl⟩
theorem storeForm_sw : StoreForm .sw .word := ⟨fun _ _ _ _ => rfl, fun _ _ _ _ => rfl, fun _ _ _ _ _ _ => rfl⟩

/-- SC's lane, its M bit 0. -/
theorem issue_sc (p : Pred) (off : BitVec 11) (rt rs : Reg) (k : Fin 4) (s : State) :
    issue (.sc p off false rt rs) k s =
      Lane.storeConditional s k false (storeAddr (s.readReg rs) off) (s.readReg rt) := rfl

section Forms
variable {p : Pred} {rd rt rs : Reg} {s : State} {k : Fin 4} {sz : Size} {sets : Bool} {f : MemFault} {pa : Word}

theorem LoadForm.traps {i : Pred → BitVec 12 → Reg → Reg → Instr} {off : BitVec 12} (hform : LoadForm i sz sets)
    (hk : k.val ≤ 1) (hp : s.holds p = true)
    (hf : (dataTranslation s k sz (loadAddr (s.readReg rs) off) false).result = .error f) :
    ∃ t, RunsAlone (i p off rd rs) k s t ∧ s.TrappedAt t k (specCode f) (loadAddr (s.readReg rs) off) :=
  memoryFault_traps hk (hform.type ..) (by rwa [hform.pred]) (by rw [hform.issue, Lane.load_of_error hf])
    (by rw [hform.issue, Lane.load_of_error hf])

theorem StoreForm.traps {i : Pred → BitVec 11 → Bool → Reg → Reg → Instr} {off : BitVec 11} (hform : StoreForm i sz)
    (hk : k.val ≤ 1) (hp : s.holds p = true)
    (hf : (dataTranslation s k sz (storeAddr (s.readReg rs) off) true).result = .error f) :
    ∃ t, RunsAlone (i p off false rt rs) k s t ∧ s.TrappedAt t k (specCode f) (storeAddr (s.readReg rs) off) :=
  memoryFault_traps hk (hform.type ..) (by rwa [hform.pred]) (by rw [hform.issue, Lane.store_of_error hf])
    (by rw [hform.issue, Lane.store_of_error hf])

theorem sc_traps {off : BitVec 11} (hk : k.val ≤ 1) (hp : s.holds p = true)
    (hf : (dataTranslation s k .word (storeAddr (s.readReg rs) off) true).result = .error f) :
    ∃ t, RunsAlone (.sc p off false rt rs) k s t ∧ s.TrappedAt t k (specCode f) (storeAddr (s.readReg rs) off) :=
  memoryFault_traps hk rfl hp (by rw [issue_sc, Lane.storeConditional_of_error hf])
    (by rw [issue_sc, Lane.storeConditional_of_error hf])

end Forms

/-- Settles O17: each instruction's lane raises the exception of the failed translation and contributes nothing else but
its walk's entry. -/
theorem memoryFaultsTrap : Obligations.MemoryFaultsTrap := by
  intro p s f k hk hp
  constructor
  · intro y hy off rd rs hf
    obtain ⟨sets, hform⟩ : ∃ sets, LoadForm y.1 y.2 sets := by
      simp only [List.mem_cons, List.not_mem_nil, or_false] at hy
      rcases hy with rfl | rfl | rfl | rfl
      exacts [⟨_, loadForm_lb⟩, ⟨_, loadForm_lh⟩, ⟨_, loadForm_lw⟩, ⟨_, loadForm_ll⟩]
    obtain ⟨t, ⟨hexec, hpacket⟩, htrapped⟩ := hform.traps hk hp hf
    exact ⟨t, hexec, hpacket, htrapped⟩
  · intro y hy off rt rs hf
    have htraps : ∃ t, RunsAlone (y.1 p off false rt rs) k s t ∧
        s.TrappedAt t k (specCode f) (storeAddr (s.readReg rs) off) := by
      simp only [List.mem_cons, List.not_mem_nil, or_false] at hy
      rcases hy with rfl | rfl | rfl | rfl
      exacts [storeForm_sb.traps hk hp hf, storeForm_sh.traps hk hp hf, storeForm_sw.traps hk hp hf, sc_traps hk hp hf]
    obtain ⟨t, ⟨hexec, hpacket⟩, htrapped⟩ := htraps
    exact ⟨t, hexec, hpacket, htrapped⟩

end Sys2Proof.Machine
end

section
/-! PROOFS. The effect of a load, of a store and of a line flush that complete: in RAM, and in the peripheral region
(20_memory.md R49, R57, R66, R68, 44_load_store.md R170 to R177, 46_system.md R204). -/

namespace Sys2Proof.Machine

/-- The fills of an access through one TLB are the entry that its walk leaves there (20_memory.md R58). -/
theorem applyFills_fillsOf (which : TlbId) (x : Translation) (s : State) :
    applyFills (fillsOf which x) s = s.fillOption which x.fill := by
  unfold applyFills fillsOf
  cases which <;> cases x.fill <;> rfl

/-- The next packet's address in pc, and nothing else changed (10_state.md R14). -/
def State.pastPacket (s : State) : State := { s with pc := s.pc + 16#32 }

theorem holds_congr {s t : State} (h : s.keepsPreds t) (p : Pred) : t.holds p = s.holds p := by
  simp only [State.holds, h p.reg]

theorem pg_congr {s t : State} (h : t.pflags = s.pflags) : t.pg = s.pg := by simp only [State.pg, h]

/-! Values of an access's width (20_memory.md R44, R47). -/

theorem toNat_truncate (sz : Size) (v : Word) : (sz.truncate v).toNat = v.toNat % 2 ^ (8 * sz.bytes) := by
  have hlt := v.isLt
  cases sz <;> simp [Size.truncate, Size.bytes] <;> omega

/-- A load from the peripheral region reads a value of its width (20_memory.md R49). -/
theorem toNat_loadValue_lt {s : State} {k : Fin 4} {pa : Word} {sz : Size} (h : isRam pa = false) :
    (loadValue s k pa sz).toNat < 2 ^ (8 * sz.bytes) := by
  rw [loadValue, h, if_neg Bool.false_ne_true, toNat_truncate]
  exact Nat.mod_lt _ (Nat.two_pow_pos _)

theorem loadValue_word_of_isRam {s : State} {k : Fin 4} {pa : Word} (h : isRam pa = true) :
    loadValue s k pa .word = s.mem.readWord pa.toNat := by
  simp [loadValue, h, Memory.readSized]

/-! Loads. -/

/-- The peripheral event of a load, if its address is not in RAM (20_memory.md R49). -/
def loadLog (s : State) (k : Fin 4) (pa : Word) (sz : Size) : List PeriphEvent :=
  if isRam pa then [] else [.load pa sz (loadValue s k pa sz)]

theorem loadEvents_eq_map (s : State) (k : Fin 4) (pa : Word) (sz : Size) :
    loadEvents s k pa sz = (loadLog s k pa sz).map .event := by
  unfold loadEvents loadLog
  split <;> rfl

/-- The state after a load of `v` that recorded `log` and left `fill`; LL sets the link bit. -/
def afterLoad (s : State) (rd : Reg) (v : Word) (sets : Bool) (log : List PeriphEvent) (fill : Option TlbEntry) : State :=
  { (s.fillOption .data fill).writeReg rd v with
    pc := s.pc + 16#32, periphLog := s.periphLog ++ log, link := sets || s.link }

theorem afterLoad_loadedReg (s : State) (rd : Reg) (v : Word) (sets : Bool) (log : List PeriphEvent)
    (fill : Option TlbEntry) : s.LoadedReg (afterLoad s rd v sets log fill) rd v (sets || s.link) fill where
  value := readReg_writeReg_self (s.fillOption .data fill) rd v
  regs := fun _ hr => readReg_writeReg_ne (s.fillOption .data fill) v hr
  preds := fun _ => rfl
  ovf := rfl
  link := rfl
  dtlb := rfl
  itlb := rfl
  rest := ⟨rfl, ⟨rfl, rfl, fun _ => rfl⟩, rfl, rfl, rfl⟩

theorem foldl_events (log : List PeriphEvent) (s : State) :
    (log.map Write.event).foldl Write.apply s = { s with periphLog := s.periphLog ++ log } := by
  induction log generalizing s with
  | nil => simp
  | cons e log ih =>
    rw [List.map_cons, List.foldl_cons, ih]
    simp [Write.apply, State.logEvent]

theorem commit_load (s : State) (rd : Reg) (v : Word) (sets : Bool) (log : List PeriphEvent) (x : Translation) :
    commit (.reg rd v :: (log.map .event ++ if sets then [.link true] else [])) (applyFills (fillsOf .data x) s) =
      afterLoad s rd v sets log x.fill := by
  have hno : Write.trapReturn ∉ .reg rd v :: (log.map .event ++ if sets then [.link true] else []) := by
    cases sets <;> simp
  rw [commit_of_no_clash (linkClash_of_no_return hno), applyFills_fillsOf, List.foldl_cons, List.foldl_append,
    foldl_events]
  cases sets <;> rfl

/-- A load that completes, alone in slot 0 or 1. -/
theorem LoadForm.runs {i : Pred → BitVec 12 → Reg → Reg → Instr} {sz : Size} {sets : Bool} {p : Pred} {off : BitVec 12}
    {rd rs : Reg} {s : State} {k : Fin 4} {pa : Word} (hform : LoadForm i sz sets) (hk : k.val ≤ 1)
    (hp : s.holds p = true) (hpa : (dataTranslation s k sz (loadAddr (s.readReg rs) off) false).result = .ok pa) :
    RunsAlone (i p off rd rs) k s
      (afterLoad s rd (loadValue s k pa sz) sets (loadLog s k pa sz)
        (dataTranslation s k sz (loadAddr (s.readReg rs) off) false).fill) := by
  have hissue := (hform.issue p off rd rs k s).trans (Lane.load_of_ok hpa)
  have hruns := runsAlone_commit hk (hform.type p off rd rs) (by rwa [hform.pred]) (by rw [hissue]) (by rw [hissue])
    (by rw [hissue]; cases sets <;> rfl)
  rwa [hissue, loadEvents_eq_map, commit_load] at hruns

/-! Stores. -/

theorem commitStore_of_isRam {s : State} {pa : Word} (h : isRam pa = true) (sz : Size) (v : Word) :
    s.commitStore pa sz v = s.storeRam pa sz v := if_pos h

theorem commitStore_of_not_isRam {s : State} {pa : Word} (h : isRam pa = false) (sz : Size) (v : Word) :
    s.commitStore pa sz v = s.logEvent (.store pa sz (sz.truncate v)) := by
  simp [State.commitStore, h]

/-- The state after a store that left `fill`. -/
def afterStore (s : State) (pa : Word) (sz : Size) (v : Word) (fill : Option TlbEntry) : State :=
  (s.fillOption .data fill).pastPacket.commitStore pa sz v

section AfterStore
variable {s : State} {pa : Word} {sz : Size} {v : Word} {fill : Option TlbEntry}

theorem afterStore_storeFrame : s.StoreFrame (afterStore s pa sz v fill) s.link fill := by
  unfold afterStore
  rcases commitStore_cases (s.fillOption .data fill).pastPacket pa sz v with ⟨-, he⟩ | ⟨-, he⟩ <;> rw [he] <;>
    exact ⟨fun _ => rfl, rfl, rfl, rfl, rfl, ⟨rfl, ⟨rfl, rfl, fun _ => rfl⟩, rfl, rfl, rfl⟩⟩

theorem afterStore_keepsPreds : s.keepsPreds (afterStore s pa sz v fill) := by
  unfold afterStore
  rcases commitStore_cases (s.fillOption .data fill).pastPacket pa sz v with ⟨-, he⟩ | ⟨-, he⟩ <;> rw [he] <;>
    exact fun _ => rfl

/-- A store to the peripheral region is an event and nothing of RAM (20_memory.md R49). -/
theorem afterStore_of_not_isRam (h : isRam pa = false) :
    afterStore s pa sz v fill =
      { s.fillOption .data fill with
        pc := s.pc + 16#32, periphLog := s.periphLog ++ [.store pa sz (sz.truncate v)] } :=
  commitStore_of_not_isRam h sz v

theorem afterStore_of_isRam (h : isRam pa = true) :
    afterStore s pa sz v fill = (s.fillOption .data fill).pastPacket.storeRam pa sz v :=
  commitStore_of_isRam h sz v

/-- A store to RAM is what a load of its size reads there (20_memory.md R66). -/
theorem afterStore_readSized (h : isRam pa = true) :
    (afterStore s pa sz v fill).mem.readSized pa.toNat sz = sz.truncate v := by
  rw [afterStore_of_isRam h]
  exact storeRam_readSized ..

end AfterStore

/-- A store that completes, alone in slot 0 or 1. -/
theorem StoreForm.runs {i : Pred → BitVec 11 → Bool → Reg → Reg → Instr} {sz : Size} {p : Pred} {off : BitVec 11}
    {rt rs : Reg} {s : State} {k : Fin 4} {pa : Word} (hform : StoreForm i sz) (hk : k.val ≤ 1) (hp : s.holds p = true)
    (hpa : (dataTranslation s k sz (storeAddr (s.readReg rs) off) true).result = .ok pa) :
    RunsAlone (i p off false rt rs) k s
      (afterStore s pa sz (s.readReg rt) (dataTranslation s k sz (storeAddr (s.readReg rs) off) true).fill) := by
  have hissue := (hform.issue p off rt rs k s).trans (Lane.store_of_ok hpa)
  have hruns := runsAlone_commit hk (hform.type p off rt rs) (by rwa [hform.pred]) (by rw [hissue]) (by rw [hissue])
    (by rw [hissue]; rfl)
  rwa [hissue, commit_of_no_clash (linkClash_of_no_return (by simp)), applyFills_fillsOf] at hruns

/-- An SC that stores, alone in slot 0 or 1: a store, then P0 and the link bit (44_load_store.md R177). -/
theorem sc_runs_linked {p : Pred} {off : BitVec 11} {rt rs : Reg} {s : State} {k : Fin 4} {pa : Word} (hk : k.val ≤ 1)
    (hp : s.holds p = true) (hlink : s.link = true)
    (hpa : (dataTranslation s k .word (storeAddr (s.readReg rs) off) true).result = .ok pa) :
    RunsAlone (.sc p off false rt rs) k s
      { afterStore s pa .word (s.readReg rt) (dataTranslation s k .word (storeAddr (s.readReg rs) off) true).fill with
        p0 := true, link := false } := by
  have hissue := (issue_sc p off rt rs k s).trans (Lane.storeConditional_of_ok hpa)
  rw [if_pos hlink] at hissue
  have hruns := runsAlone_commit (i := .sc p off false rt rs) hk rfl hp (by rw [hissue]) (by rw [hissue])
    (by rw [hissue]; rfl)
  rwa [hissue, commit_of_no_clash (linkClash_of_no_return (by simp)), applyFills_fillsOf] at hruns

/-- The frame of a store says nothing of P0, and the link bit is as given. -/
theorem State.StoreFrame.with_p0_link {s t : State} {link : Bool} {fill : Option TlbEntry}
    (h : s.StoreFrame t link fill) (b link' : Bool) : s.StoreFrame { t with p0 := b, link := link' } link' fill :=
  ⟨h.regs, h.ovf, rfl, h.dtlb, h.itlb, h.rest.pc, ⟨h.rest.control.1, h.rest.control.2.1, h.rest.control.2.2⟩,
    h.rest.environment⟩

/-! The peripheral region (20_memory.md R49, R63, R64). -/

section Peripheral
variable {p : Pred} {rd rt rs : Reg} {s : State} {k : Fin 4} {sz : Size} {sets st : Bool} {ea pa : Word}

/-- A peripheral address that answers is accessed; one that does not is an invalid physical address. -/
theorem dataTranslation_of_peripheral (h : (translate s s.dtlb (.lane k) (sz.align ea) st).result = .ok pa)
    (hpa : 0x80000000 ≤ pa.toNat) :
    dataTranslation s k sz ea st =
      { fill := (translate s s.dtlb (.lane k) (sz.align ea) st).fill,
        result := if Config.periphValid pa = true then .ok pa else .error .invalidPhysical } := by
  rw [dataTranslation, translateValid_of_ok h, specValid_eq, validPhys_of_peripheral hpa]

theorem LoadForm.peripheral {i : Pred → BitVec 12 → Reg → Reg → Instr} {off : BitVec 12} (hform : LoadForm i sz sets)
    (hk : k.val ≤ 1) (hp : s.holds p = true)
    (h : (translate s s.dtlb (.lane k) (sz.align (loadAddr (s.readReg rs) off)) false).result = .ok pa)
    (hpa : 0x80000000 ≤ pa.toNat) :
    ∃ t, RunsAlone (i p off rd rs) k s t ∧
      if Config.periphValid pa = true then
        ∃ v, s.LoadedReg t rd v (sets || s.link)
            (translate s s.dtlb (.lane k) (sz.align (loadAddr (s.readReg rs) off)) false).fill ∧
          v.toNat < 2 ^ (8 * sz.bytes) ∧ (∀ a, t.mem.read a = s.mem.read a) ∧ t.l2Old = s.l2Old ∧
          t.l1iOld = s.l1iOld ∧ t.periphLog = s.periphLog ++ [.load pa sz v]
      else s.TrappedAt t k 6#32 (loadAddr (s.readReg rs) off) := by
  have hx := dataTranslation_of_peripheral h hpa
  have hram := isRam_of_peripheral hpa
  split
  next hanswers =>
    rw [if_pos hanswers] at hx
    have hruns := hform.runs (rd := rd) hk hp (congrArg Translation.result hx)
    refine ⟨_, hruns, loadValue s k pa sz, ?_, toNat_loadValue_lt hram, fun _ => rfl, rfl, rfl, ?_⟩
    · rw [hx]
      exact afterLoad_loadedReg ..
    · simp [afterLoad, loadLog, hram]
  next hsilent =>
    rw [if_neg hsilent] at hx
    exact hform.traps (f := .invalidPhysical) hk hp (congrArg Translation.result hx)

theorem StoreForm.peripheral {i : Pred → BitVec 11 → Bool → Reg → Reg → Instr} {off : BitVec 11}
    (hform : StoreForm i sz) (hk : k.val ≤ 1) (hp : s.holds p = true)
    (h : (translate s s.dtlb (.lane k) (sz.align (storeAddr (s.readReg rs) off)) true).result = .ok pa)
    (hpa : 0x80000000 ≤ pa.toNat) :
    ∃ t, RunsAlone (i p off false rt rs) k s t ∧
      if Config.periphValid pa = true then
        ∃ v, s.StoreFrame t s.link
            (translate s s.dtlb (.lane k) (sz.align (storeAddr (s.readReg rs) off)) true).fill ∧ s.keepsPreds t ∧
          v.toNat = (s.readReg rt).toNat % 2 ^ (8 * sz.bytes) ∧ (∀ a, t.mem.read a = s.mem.read a) ∧
          t.l2Old = s.l2Old ∧ t.l1iOld = s.l1iOld ∧ t.periphLog = s.periphLog ++ [.store pa sz v]
      else s.TrappedAt t k 6#32 (storeAddr (s.readReg rs) off) := by
  have hx := dataTranslation_of_peripheral h hpa
  have hram := isRam_of_peripheral hpa
  split
  next hanswers =>
    rw [if_pos hanswers] at hx
    have hruns := hform.runs (rt := rt) hk hp (congrArg Translation.result hx)
    rw [hx] at hruns
    refine ⟨_, hruns, sz.truncate (s.readReg rt), afterStore_storeFrame, afterStore_keepsPreds, toNat_truncate .., ?_⟩
    rw [afterStore_of_not_isRam hram]
    exact ⟨fun _ => rfl, rfl, rfl, rfl⟩
  next hsilent =>
    rw [if_neg hsilent] at hx
    exact hform.traps (f := .invalidPhysical) hk hp (congrArg Translation.result hx)

theorem sc_peripheral {off : BitVec 11} (hk : k.val ≤ 1) (hp : s.holds p = true) (hlink : s.link = true)
    (h : (translate s s.dtlb (.lane k) (Size.word.align (storeAddr (s.readReg rs) off)) true).result = .ok pa)
    (hpa : 0x80000000 ≤ pa.toNat) :
    ∃ t, RunsAlone (.sc p off false rt rs) k s t ∧
      if Config.periphValid pa = true then
        s.StoreFrame t false
            (translate s s.dtlb (.lane k) (Size.word.align (storeAddr (s.readReg rs) off)) true).fill ∧
          t.readPred 0 = true ∧ (∀ n, n ≠ 0 → t.readPred n = s.readPred n) ∧ (∀ a, t.mem.read a = s.mem.read a) ∧
          t.l2Old = s.l2Old ∧ t.l1iOld = s.l1iOld ∧ t.periphLog = s.periphLog ++ [.store pa .word (s.readReg rt)]
      else s.TrappedAt t k 6#32 (storeAddr (s.readReg rs) off) := by
  have hx := dataTranslation_of_peripheral h hpa
  have hram := isRam_of_peripheral hpa
  split
  next hanswers =>
    rw [if_pos hanswers] at hx
    have hruns := sc_runs_linked (rt := rt) hk hp hlink (congrArg Translation.result hx)
    rw [hx] at hruns
    refine ⟨_, hruns, afterStore_storeFrame.with_p0_link true false, rfl, ?_⟩
    rw [afterStore_of_not_isRam hram]
    refine ⟨fun n hn => ?_, fun _ => rfl, rfl, rfl, rfl⟩
    match n with
    | 0 => exact absurd rfl hn
    | 1 | 2 | 3 => rfl
  next hsilent =>
    rw [if_neg hsilent] at hx
    exact sc_traps (f := .invalidPhysical) hk hp (congrArg Translation.result hx)

end Peripheral

/-- Settles O18: a peripheral access is a load, a store or an SC that completes or traps as the address answers or not. -/
theorem peripheralAccesses : Obligations.PeripheralAccesses := by
  refine ⟨fun p s ea pa x k hk hp hres hpa => ⟨?_, ?_, ?_⟩, translate_pg_off⟩
  · rintro y hy off rd rs rfl rfl
    have hform : LoadForm y.1 y.2.1 y.2.2 := by
      simp only [List.mem_cons, List.not_mem_nil, or_false] at hy
      rcases hy with rfl | rfl | rfl | rfl
      exacts [loadForm_lb, loadForm_lh, loadForm_lw, loadForm_ll]
    obtain ⟨t, ⟨hexec, hpacket⟩, heffect⟩ := hform.peripheral hk hp hres hpa
    exact ⟨t, hexec, hpacket, heffect⟩
  · rintro y hy off rt rs rfl rfl
    have hform : StoreForm y.1 y.2 := by
      simp only [List.mem_cons, List.not_mem_nil, or_false] at hy
      rcases hy with rfl | rfl | rfl
      exacts [storeForm_sb, storeForm_sh, storeForm_sw]
    obtain ⟨t, ⟨hexec, hpacket⟩, heffect⟩ := hform.peripheral hk hp hres hpa
    exact ⟨t, hexec, hpacket, heffect⟩
  · rintro off rt rs hlink rfl rfl
    obtain ⟨t, ⟨hexec, hpacket⟩, heffect⟩ := sc_peripheral hk hp hlink hres hpa
    exact ⟨t, hexec, hpacket, heffect⟩

/-! A store and then a load of the same word (20_memory.md R66). -/

/-- With PG = 0 an access whose address is in RAM goes to the address rounded down. -/
theorem dataTranslation_of_ram_pg_off {s : State} {ea : Word} (hpg : s.pg = false) (hea : ea.toNat < 0x20000000)
    (k : Fin 4) (sz : Size) (st : Bool) :
    isRam (sz.align ea) = true ∧ dataTranslation s k sz ea st = { fill := none, result := .ok (sz.align ea) } := by
  have hram : isRam (sz.align ea) = true := isRam_iff.2 (by rw [toNat_align]; omega)
  exact ⟨hram, dataTranslation_pg_off s k sz ea st hpg (validPhys_of_isRam hram)⟩

/-- With PG = 0 SW to an address in RAM completes, and changes only memory and pc: the next load of a word of that
address reads the stored register. -/
theorem exec_sw_pg_off {p : Pred} {off : BitVec 11} {rt rs : Reg} {s : State} (hpg : s.pg = false)
    (hp : s.holds p = true) (hea : (storeAddr (s.readReg rs) off).toNat < 0x20000000) :
    ∃ t, exec (.sw p off false rt rs) s = .next t ∧ t.pg = false ∧ s.keepsRegs t ∧ s.keepsPreds t ∧
      t.mem.readWord (Size.word.align (storeAddr (s.readReg rs) off)).toNat = s.readReg rt := by
  obtain ⟨hram, hx⟩ := dataTranslation_of_ram_pg_off hpg hea 0 .word true
  have hruns := storeForm_sw.runs (k := 0) (rt := rt) (by decide) hp (congrArg Translation.result hx)
  exact ⟨_, hruns.1 rfl, (pg_congr afterStore_storeFrame.rest.control.2.1).trans hpg, afterStore_storeFrame.regs,
    afterStore_keepsPreds, afterStore_readSized (sz := .word) hram⟩

/-- With PG = 0 LW from an address in RAM completes, and Rd gets the word there. -/
theorem exec_lw_pg_off {p : Pred} {off : BitVec 12} {rd rs : Reg} {s : State} (hpg : s.pg = false)
    (hp : s.holds p = true) (hea : (loadAddr (s.readReg rs) off).toNat < 0x20000000) :
    ∃ t, exec (.lw p off rd rs) s = .next t ∧
      t.readReg rd = s.mem.readWord (Size.word.align (loadAddr (s.readReg rs) off)).toNat := by
  obtain ⟨hram, hx⟩ := dataTranslation_of_ram_pg_off hpg hea 0 .word false
  have hruns := loadForm_lw.runs (k := 0) (rd := rd) (by decide) hp (congrArg Translation.result hx)
  exact ⟨_, hruns.1 rfl, (afterLoad_loadedReg ..).value.trans (loadValue_word_of_isRam hram)⟩

/-- Settles O20: the store changes no register, predicate or PG, so that the load goes to the word it wrote. -/
theorem storeThenLoad : Obligations.StoreThenLoad := by
  intro p q off off' rt rs rd s hpg hp hq haddr hea
  obtain ⟨t, hsw, htpg, hregs, hpreds, hword⟩ := exec_sw_pg_off (rt := rt) hpg hp hea
  have haddr' : loadAddr (t.readReg rs) off' = storeAddr (s.readReg rs) off := by rw [hregs rs, haddr]
  obtain ⟨u, hlw, hread⟩ := exec_lw_pg_off (rd := rd) htpg ((holds_congr hpreds q).trans hq) (haddr' ▸ hea)
  exact ⟨t, u, hsw, hlw, by rw [hread, haddr', hword]⟩

/-! Line flushes with PG = 0 (20_memory.md R68, 46_system.md R204). -/

theorem exec_flushData_pg_off {p : Pred} {r : Reg} {s : State} (hpg : s.pg = false) (hp : s.holds p = true) :
    exec (.flush p false .data r) s = .next (s.pastPacket.flushDataLine (s.readReg r)) := by
  have hlane : issue (.flush p false .data r) 0 s = { writes := [.flushData (s.readReg r)] } := by
    simp [issue, laneFlush, Lane.flush, Lane.flushLine, fillsOf, translate_pg_off _ _ _ _ _ hpg]
  rw [exec_eq_execAlone, hlane]
  exact execAlone_commit p _ s hp rfl rfl

theorem exec_flushInst_pg_off {p : Pred} {r : Reg} {s : State} (hpg : s.pg = false) (hp : s.holds p = true) :
    exec (.flush p false .inst r) s = .next (s.pastPacket.flushInstLine (s.readReg r)) := by
  have hlane : issue (.flush p false .inst r) 0 s = { writes := [.flushInst (s.readReg r)] } := by
    simp [issue, laneFlush, Lane.flush, Lane.flushLine, fillsOf, translate_pg_off _ _ _ _ _ hpg]
  rw [exec_eq_execAlone, hlane]
  exact execAlone_commit p _ s hp rfl rfl

theorem fetchWord_admitted {s : State} {slot : Nat} {pa : Word} (h : isRam pa = true) :
    fetchWord s slot pa = s.mem.readWord pa.toNat ∨ (pa.toNat, fetchWord s slot pa) ∈ s.l1iOld := by
  rw [fetchWord, if_pos h]
  exact (admitted_cases ..).imp_right Versions.mem_at.1

/-- A word with no older value is fetched as it is stored (20_memory.md R68). -/
theorem fetchWord_of_no_older {s : State} {slot : Nat} {pa : Word} (h : isRam pa = true)
    (hold : ∀ w, (pa.toNat, w) ∉ s.l1iOld) : fetchWord s slot pa = s.mem.readWord pa.toNat :=
  (fetchWord_admitted h).resolve_right (hold _)

/-- After FLUSH.DATA and then FLUSH.INST no older value of the line is left: the second would keep only what L2 may still
hold (46_system.md R204). -/
theorem not_mem_l1iOld_of_flushed (s : State) {pa : Word} {v : Nat × Word} (hline : lineOf v.1 = lineOf pa.toNat) :
    v ∉ ((s.flushDataLine pa).pastPacket.flushInstLine pa).l1iOld := by
  intro hv
  rcases List.mem_append.1 hv with hkept | hfromL2
  · exact (Versions.mem_dropLine.1 hkept).2 hline
  · exact (Versions.mem_dropLine.1 (Versions.mem_inLine.1 hfromL2).1).2 hline

/-- Settles O24: FLUSH.DATA leaves FLUSH.INST no older value of the line to keep. -/
theorem fetchAfterFlush : Obligations.FetchAfterFlush := by
  refine ⟨fun s slot pa => fetchWord_admitted, fun s p r hpg hp => ?_⟩
  have hinst : exec (.flush p false .inst r) (s.pastPacket.flushDataLine (s.readReg r)) =
      .next ((s.pastPacket.flushDataLine (s.readReg r)).pastPacket.flushInstLine (s.readReg r)) :=
    exec_flushInst_pg_off hpg hp
  exact ⟨_, _, exec_flushData_pg_off hpg hp, hinst,
    fun slot pa hram hline => fetchWord_of_no_older hram fun _ => not_mem_l1iOld_of_flushed _ hline⟩

end Sys2Proof.Machine
end

section
/-! PROOFS. Memory instructions in slots 0 and 1 of one packet: their accesses, when they conflict, and a load beside a
store (20_memory.md R71, 40_packet_execution.md R114, R115; log 18, log 36). -/

namespace Sys2Proof.Machine

/-! The access of each memory instruction. -/

section Access
variable {pk : Packet} {p : Pred} {rd rt rs : Reg} {s : State} {k : Fin 4} {sz : Size} {sets : Bool} {pa : Word}

/-- The access of a memory instruction that executes in slot 0 or 1 is its lane's. -/
theorem hasAccess_of_issue {i : Instr} {a : Access} (hk : k.val ≤ 1) (hi : i.format.type = .memory)
    (hp : s.holds i.pred = true) (hslot : slotAt pk k = .instr i) (ha : (issue i k s).access = some a) :
    HasAccess pk s k a :=
  ⟨i, hslot, hi, hp, by rw [laneAt_memory hk hi hp hslot, ha]⟩

theorem LoadForm.hasAccess {i : Pred → BitVec 12 → Reg → Reg → Instr} {off : BitVec 12} (hform : LoadForm i sz sets)
    (hk : k.val ≤ 1) (hp : s.holds p = true) (hslot : slotAt pk k = .instr (i p off rd rs))
    (hpa : (dataTranslation s k sz (loadAddr (s.readReg rs) off) false).result = .ok pa) :
    HasAccess pk s k { kind := if sets then .ll rd else .load rd, pa := pa, size := sz } :=
  hasAccess_of_issue hk (hform.type ..) (by rwa [hform.pred]) hslot (by rw [hform.issue, Lane.load_of_ok hpa])

theorem StoreForm.hasAccess {i : Pred → BitVec 11 → Bool → Reg → Reg → Instr} {off : BitVec 11}
    (hform : StoreForm i sz) (hk : k.val ≤ 1) (hp : s.holds p = true)
    (hslot : slotAt pk k = .instr (i p off false rt rs))
    (hpa : (dataTranslation s k sz (storeAddr (s.readReg rs) off) true).result = .ok pa) :
    HasAccess pk s k { kind := .store, pa := pa, size := sz } :=
  hasAccess_of_issue hk (hform.type ..) (by rwa [hform.pred]) hslot (by rw [hform.issue, Lane.store_of_ok hpa])

theorem sc_hasAccess {off : BitVec 11} (hk : k.val ≤ 1) (hp : s.holds p = true)
    (hslot : slotAt pk k = .instr (.sc p off false rt rs))
    (hpa : (dataTranslation s k .word (storeAddr (s.readReg rs) off) true).result = .ok pa) :
    HasAccess pk s k { kind := .sc, pa := pa, size := .word } :=
  hasAccess_of_issue (i := .sc p off false rt rs) hk rfl hp hslot (by rw [issue_sc, Lane.storeConditional_of_ok hpa])

end Access

/-! Conflicts (20_memory.md R71). -/

/-- The model's conflict is that of the words of 20_memory.md R71. -/
theorem conflicts_iff (a b : Access) : a.conflicts b = true ↔ SpecConflict a b := by
  simp only [Access.conflicts, Access.overlaps, SpecConflict, Bool.or_eq_true, Bool.and_eq_true, decide_eq_true_eq]
  tauto

/-! A packet in which no lane raises (40_packet_execution.md R114, R115). -/

/-- No slot of the packet raises an exception of its own, is without a meaning, or shares a destination. -/
structure Quiet (pk : Packet) (s : State) : Prop where
  exn : ∀ k, (laneAt pk s k).exn = none
  refusal : ∀ k, (laneAt pk s k).refusal = none
  dests : ∀ k, ¬duplicated pk s k

section Quiet
variable {pk : Packet} {s : State}

theorem Quiet.collides_eq_false (h : Quiet pk s) {k a b c : Fin 4} (ha : a ≠ k) (hb : b ≠ k) (hc : c ≠ k) :
    collides (laneAt pk s k).dests ((laneAt pk s a).dests ++ (laneAt pk s b).dests ++ (laneAt pk s c).dests) =
      false := by
  rw [Bool.eq_false_iff]
  intro hcollides
  obtain ⟨d, hd, hothers⟩ := List.any_eq_true.1 hcollides
  rw [List.contains_iff_mem, List.mem_append, List.mem_append] at hothers
  obtain (hmem | hmem) | hmem := hothers
  exacts [h.dests k ⟨a, ha, d, hd, hmem⟩, h.dests k ⟨b, hb, d, hd, hmem⟩, h.dests k ⟨c, hc, d, hd, hmem⟩]

/-- A quiet packet is decided by its two memory slots. -/
theorem Quiet.runPacket_eq (h : Quiet pk s) :
    runPacket pk s = (memoryWrites (laneAt pk s 0) (laneAt pk s 1) s).elim (.refused .memorySlotsConflict) fun ws =>
      .next (commit (ws ++ (laneAt pk s 2).writes ++ (laneAt pk s 3).writes)
        (applyFills ((laneAt pk s 0).fills ++ (laneAt pk s 1).fills ++ (laneAt pk s 2).fills ++ (laneAt pk s 3).fills)
          s)) := by
  rw [Machine.runPacket_eq, finishPacket, firstRefusal]
  simp (disch := decide) only [h.refusal, h.exn, h.collides_eq_false, Option.or_none, reported_none_false,
    Option.isSome_none, Bool.or_false, Bool.false_eq_true, if_false]
  cases memoryWrites (laneAt pk s 0) (laneAt pk s 1) s <;> rfl

/-- Two accesses that conflict in the words of R71 refuse a quiet packet where MEM_LANE_ORDER has no value (log 18). -/
theorem Quiet.refused {a b : Access} (h : Quiet pk s) (ha : HasAccess pk s 0 a) (hb : HasAccess pk s 1 b)
    (hconflict : SpecConflict a b) (horder : s.params.memLaneOrder = none) :
    runPacket pk s = .refused .memorySlotsConflict := by
  obtain ⟨_, -, -, -, ha⟩ := ha
  obtain ⟨_, -, -, -, hb⟩ := hb
  have hnone : memoryWrites (laneAt pk s 0) (laneAt pk s 1) s = none :=
    (memoryWrites_eq_none ..).2 ⟨horder, by rw [ha, hb]; exact (conflicts_iff a b).2 hconflict⟩
  rw [h.runPacket_eq, hnone]
  rfl

end Quiet

/-! LW in slot 0 beside SW in slot 1, both in RAM. -/

/-- A sized store puts the low bytes of its value in order (20_memory.md R44). -/
theorem read_writeSized_inside (m : Memory) (a : Nat) (sz : Size) (v : Word) {j : Nat} (hj : j < sz.bytes) :
    (m.writeSized a sz v).read (a + j) = v.extractLsb' (8 * j) 8 := by
  cases sz <;> simp only [Size.bytes] at hj <;> interval_cases j <;> simp [Memory.writeSized, Memory.read_write]

theorem storedBytes_of_mem {s t : State} {a : Nat} {sz : Size} {v : Word} (h : t.mem = s.mem.writeSized a sz v) :
    s.storedBytes t a sz.bytes v :=
  ⟨fun _ hj => h ▸ read_writeSized_inside s.mem a sz v hj,
    fun x hx => h ▸ Memory.read_writeSized_outside s.mem a sz v x hx⟩

/-- The packet of a load in slot 0 and a store in slot 1. -/
def loadBesideStore (p q : Pred) (off : BitVec 12) (off' : BitVec 11) (rd rs rt rs' : Reg) : Packet :=
  { slot0 := .instr (.lw p off rd rs), slot1 := .instr (.sw q off' false rt rs'), slot2 := .operand, slot3 := .operand }

section LoadBesideStore
variable {p q : Pred} {off : BitVec 12} {off' : BitVec 11} {rd rs rt rs' : Reg} {s : State} {pa pb : Word}

/-- The lane of the load, from RAM. -/
theorem loadBesideStore_lane0 (hp : s.holds p = true) (hram : isRam pa = true)
    (hpa : (dataTranslation s 0 .word (loadAddr (s.readReg rs) off) false).result = .ok pa) :
    laneAt (loadBesideStore p q off off' rd rs rt rs') s 0 =
      { dests := [.reg rd]
        writes := [.reg rd (s.mem.readWord pa.toNat)]
        fills := fillsOf .data (dataTranslation s 0 .word (loadAddr (s.readReg rs) off) false)
        access := some { kind := .load rd, pa := pa, size := .word } } := by
  rw [laneAt_memory (by decide) rfl hp rfl, loadForm_lw.issue, Lane.load_of_ok hpa, loadValue_word_of_isRam hram]
  simp [loadEvents, hram]

theorem loadBesideStore_lane1 (hq : s.holds q = true)
    (hpb : (dataTranslation s 1 .word (storeAddr (s.readReg rs') off') true).result = .ok pb) :
    laneAt (loadBesideStore p q off off' rd rs rt rs') s 1 =
      { writes := [.store pb .word (s.readReg rt)]
        fills := fillsOf .data (dataTranslation s 1 .word (storeAddr (s.readReg rs') off') true)
        access := some { kind := .store, pa := pb, size := .word } } := by
  rw [laneAt_memory (by decide) rfl hq rfl, storeForm_sw.issue, Lane.store_of_ok hpb]

/-- The load alone has a destination, and neither slot raises. -/
theorem loadBesideStore_quiet (hp : s.holds p = true) (hq : s.holds q = true) (hram : isRam pa = true)
    (hpa : (dataTranslation s 0 .word (loadAddr (s.readReg rs) off) false).result = .ok pa)
    (hpb : (dataTranslation s 1 .word (storeAddr (s.readReg rs') off') true).result = .ok pb) :
    Quiet (loadBesideStore p q off off' rd rs rt rs') s := by
  have h0 := loadBesideStore_lane0 (q := q) (off' := off') (rd := rd) (rt := rt) (rs' := rs') hp hram hpa
  have h1 := loadBesideStore_lane1 (p := p) (off := off) (rd := rd) (rs := rs) (rt := rt) hq hpb
  have only_load {j : Fin 4} {d : Dest} (hd : d ∈ (laneAt (loadBesideStore p q off off' rd rs rt rs') s j).dests) :
      j = 0 := by
    match j with
    | 0 => rfl
    | 1 => rw [h1] at hd; cases hd
    | 2 | 3 => cases hd
  have no_exn (k : Fin 4) : (laneAt (loadBesideStore p q off off' rd rs rt rs') s k).exn = none ∧
      (laneAt (loadBesideStore p q off off' rd rs rt rs') s k).refusal = none := by
    match k with
    | 0 => rw [h0]; exact ⟨rfl, rfl⟩
    | 1 => rw [h1]; exact ⟨rfl, rfl⟩
    | 2 | 3 => exact ⟨rfl, rfl⟩
  exact ⟨fun k => (no_exn k).1, fun k => (no_exn k).2,
    fun k ⟨j, hj, d, hd, hd'⟩ => hj ((only_load hd').trans (only_load hd).symm)⟩

/-- The state after a word stored to RAM and a register written, in either order of the two. -/
theorem commit_reg_store {u : State} {r : Reg} {v w : Word} (hram : isRam pb = true) :
    commit [.reg r v, .store pb .word w] u = (u.pastPacket.storeRam pb .word w).writeReg r v := by
  rw [commit_of_no_clash (linkClash_of_no_return (by simp))]
  exact commitStore_of_isRam hram ..

theorem commit_store_reg {u : State} {r : Reg} {v w : Word} (hram : isRam pb = true) :
    commit [.store pb .word w, .reg r v] u = (u.pastPacket.storeRam pb .word w).writeReg r v := by
  rw [commit_of_no_clash (linkClash_of_no_return (by simp))]
  exact congrArg (State.writeReg · r v) (commitStore_of_isRam hram ..)

/-- Accesses of different words of RAM do not conflict, if one is a load and the other a store. -/
theorem not_conflict_of_disjoint (h : pb.toNat + 4 ≤ pa.toNat ∨ pa.toNat + 4 ≤ pb.toNat) :
    ({ kind := .load rd, pa := pa, size := .word } : Access).conflicts { kind := .store, pa := pb, size := .word } =
      false := by
  rw [Bool.eq_false_iff, Ne, conflicts_iff]
  simp only [SpecConflict, Size.bytes, AccessKind.isStore, AccessKind.isLl]
  rintro (⟨⟨hlow, hhigh⟩, -⟩ | ⟨hno, -⟩ | ⟨hno, -⟩ | ⟨hno, -⟩ | ⟨hno, -⟩)
  · omega
  all_goals cases hno

/-- The writes of the two slots where they are not refused: the load reads memory from before the packet, or, where
MEM_LANE_ORDER puts slot 1 first, as the store leaves it (log 36). -/
theorem memoryWrites_load_store {l0 l1 : Lane} {w : Word} (hram : isRam pa = true) (hram' : isRam pb = true)
    (hw0 : l0.writes = [.reg rd (s.mem.readWord pa.toNat)])
    (ha0 : l0.access = some { kind := .load rd, pa := pa, size := .word })
    (hw1 : l1.writes = [.store pb .word w]) (ha1 : l1.access = some { kind := .store, pa := pb, size := .word })
    (h : s.params.memLaneOrder ≠ none ∨ pb.toNat + 4 ≤ pa.toNat ∨ pa.toNat + 4 ≤ pb.toNat) :
    ∃ ws, memoryWrites l0 l1 s = some ws ∧ ∀ u, commit ws u = (u.pastPacket.storeRam pb .word w).writeReg rd
      (if s.params.memLaneOrder = some .slot1First then (s.mem.writeSized pb.toNat .word w).readWord pa.toNat
      else s.mem.readWord pa.toNat) := by
  cases horder : s.params.memLaneOrder with
  | none =>
    have hconflict : accessConflict l0.access l1.access = false := by
      rw [ha0, ha1]
      exact not_conflict_of_disjoint (h.resolve_left (absurd horder))
    refine ⟨_, memoryWrites_of_no_conflict l0 l1 s horder hconflict, fun u => ?_⟩
    rw [hw0, hw1]
    exact commit_reg_store hram'
  | some o =>
    cases o with
    | slot0First =>
      refine ⟨[.reg rd (s.mem.readWord pa.toNat), .store pb .word w], ?_, fun u => commit_reg_store hram'⟩
      simp [memoryWrites, horder, Lane.writesAfter, ha1, hw0, hw1]
    | slot1First =>
      have hread : loadValue { s with mem := storesInto s.mem [.store pb .word w] } 0 pa .word =
          (s.mem.writeSized pb.toNat .word w).readWord pa.toNat := by
        simp [loadValue_word_of_isRam hram, storesInto, hram']
      refine ⟨[.store pb .word w, .reg rd ((s.mem.writeSized pb.toNat .word w).readWord pa.toNat)], ?_,
        fun u => commit_store_reg hram'⟩
      simp [memoryWrites, horder, Lane.writesAfter, ha0, ha1, hw0, hw1, hread]

/-- Where the packet is not refused, the store takes effect and so does the load. -/
theorem loadBesideStore_next (hp : s.holds p = true) (hq : s.holds q = true) (hram : isRam pa = true)
    (hram' : isRam pb = true)
    (hpa : (dataTranslation s 0 .word (loadAddr (s.readReg rs) off) false).result = .ok pa)
    (hpb : (dataTranslation s 1 .word (storeAddr (s.readReg rs') off') true).result = .ok pb)
    (h : s.params.memLaneOrder ≠ none ∨ pb.toNat + 4 ≤ pa.toNat ∨ pa.toNat + 4 ≤ pb.toNat) :
    ∃ fs, runPacket (loadBesideStore p q off off' rd rs rt rs') s = .next
      (((applyFills fs s).pastPacket.storeRam pb .word (s.readReg rt)).writeReg rd
        (if s.params.memLaneOrder = some .slot1First then
          (s.mem.writeSized pb.toNat .word (s.readReg rt)).readWord pa.toNat
        else s.mem.readWord pa.toNat)) := by
  have h0 := loadBesideStore_lane0 (q := q) (off' := off') (rd := rd) (rt := rt) (rs' := rs') hp hram hpa
  have h1 := loadBesideStore_lane1 (p := p) (off := off) (rd := rd) (rs := rs) (rt := rt) hq hpb
  have h2 : laneAt (loadBesideStore p q off off' rd rs rt rs') s 2 = Lane.idle := rfl
  have h3 : laneAt (loadBesideStore p q off off' rd rs rt rs') s 3 = Lane.idle := rfl
  obtain ⟨ws, hws, hcommit⟩ := memoryWrites_load_store hram hram' (congrArg Lane.writes h0) (congrArg Lane.access h0)
    (congrArg Lane.writes h1) (congrArg Lane.access h1) h
  have hrun := (loadBesideStore_quiet (rd := rd) (rt := rt) hp hq hram hpa hpb).runPacket_eq
  rw [hws, Option.elim_some, h2, h3, Lane.idle, List.append_nil, List.append_nil, hcommit] at hrun
  exact ⟨_, hrun⟩

end LoadBesideStore

/-- Settles O48: the accesses are those of the lanes, a conflict refuses a quiet packet, and a load beside a store is the
packet `loadBesideStore`. -/
theorem twoMemorySlots : Obligations.TwoMemorySlots := by
  refine ⟨fun pk p s k pa hk hp => ⟨fun y hy off rd rs hslot hpa => ?_, fun y hy off rt rs hslot hpa => ?_⟩,
    fun pk s a b ha hb hconflict hlane hdup horder => ?_,
    fun p q off off' rd rs rt rs' s pa pb hp hq hram hram' hpa hpb => ⟨fun horder hoverlap => ?_, fun h => ?_⟩⟩
  · simp only [List.mem_cons, List.not_mem_nil, or_false] at hy
    rcases hy with rfl | rfl | rfl | rfl
    exacts [loadForm_lb.hasAccess hk hp hslot hpa, loadForm_lh.hasAccess hk hp hslot hpa,
      loadForm_lw.hasAccess hk hp hslot hpa, loadForm_ll.hasAccess hk hp hslot hpa]
  · simp only [List.mem_cons, List.not_mem_nil, or_false] at hy
    rcases hy with rfl | rfl | rfl | rfl
    exacts [storeForm_sb.hasAccess hk hp hslot hpa, storeForm_sh.hasAccess hk hp hslot hpa,
      storeForm_sw.hasAccess hk hp hslot hpa, sc_hasAccess hk hp hslot hpa]
  · have hquiet : Quiet pk s := ⟨fun k => (hlane k).1, fun k => (hlane k).2, hdup⟩
    exact hquiet.refused ha hb hconflict horder
  · exact (loadBesideStore_quiet hp hq hram hpa hpb).refused (loadForm_lw.hasAccess (by decide) hp rfl hpa)
      (storeForm_sw.hasAccess (by decide) hq rfl hpb) (.inl ⟨hoverlap, .inr rfl⟩) horder
  · obtain ⟨fs, hrun⟩ := loadBesideStore_next (rd := rd) (rt := rt) hp hq hram hram' hpa hpb h
    exact ⟨_, hrun, readReg_writeReg_self .., fun _ hr => readReg_writeReg_ne _ _ hr,
      storedBytes_of_mem (sz := .word) rfl, rfl⟩

end Sys2Proof.Machine
end

section
/-! PROOFS. The groups of words that the decoder tells apart by bits 28:14, and the words that it refuses
(30_encoding.md R82 to R103). -/

namespace Sys2Proof

/-! Fields of a word as natural numbers. -/

/-- Bits 28:14 of a word, on which its format depends (30_encoding.md R82 to R94). -/
def formatBits (w : Word) : BitVec 15 := w.extractLsb' 14 15

/-- A field within bits 28:14. -/
theorem toNat_field {start len : Nat} (w : Word) (hlow : 14 ≤ start) (hhigh : start + len ≤ 29) :
    (w.extractLsb' start len).toNat = (formatBits w).toNat / 2 ^ (start - 14) % 2 ^ len := by
  have hfield : w.extractLsb' start len = (formatBits w).extractLsb' (start - 14) len := by
    ext i hi
    have hbit : start - 14 + i < 15 := by omega
    have hsum : 14 + (start - 14 + i) = start + i := by omega
    simp [formatBits, hbit, hsum]
  rw [hfield, BitVec.extractLsb'_toNat, Nat.shiftRight_eq_div_pow]

/-- A field equals a constant exactly where its number does. -/
theorem field_eq_iff {start len : Nat} (w : Word) (c : BitVec len) (hlow : 14 ≤ start) (hhigh : start + len ≤ 29) :
    w.extractLsb' start len = c ↔ (formatBits w).toNat / 2 ^ (start - 14) % 2 ^ len = c.toNat := by
  rw [← BitVec.toNat_inj, toNat_field w hlow hhigh]

theorem bit_eq_true_iff {j : Nat} (w : Word) (hlow : 14 ≤ j) (hhigh : j < 29) :
    w.getLsbD j = true ↔ (formatBits w).toNat / 2 ^ (j - 14) % 2 = 1 := by
  rw [BitVec.getLsbD_eq_extractLsb', beq_iff_eq, field_eq_iff w _ hlow hhigh]
  rfl

theorem bit_eq_false_iff {j : Nat} (w : Word) (hlow : 14 ≤ j) (hhigh : j < 29) :
    w.getLsbD j = false ↔ (formatBits w).toNat / 2 ^ (j - 14) % 2 = 0 := by
  rw [← Bool.not_eq_true, bit_eq_true_iff w hlow hhigh]
  omega

/-! The groups of words. -/

/-- What bits 28:14 of a word can make of it: a format's word (loads and stores share a group, and so do the three
short and the three register formats), or one of the two shapes that no format has (30_encoding.md R82 to R94, R103). -/
inductive WordGroup where
  | short
  | reg
  | brImm
  | brReg
  | memory
  | ctrl
  | regsh
  | long
  | filler
  | reserved

/-- The bits of each group. -/
def WordGroup.Has (g : WordGroup) (w : Word) : Prop :=
  match g with
  | .short => w.getLsbD 28 = false
  | .reg => w.extractLsb' 26 3 = 0b101#3
  | .brImm => w.extractLsb' 26 3 = 0b110#3
  | .brReg => w.extractLsb' 26 3 = 0b111#3
  | .memory => w.extractLsb' 25 4 = 0b1001#4
  | .ctrl => w.extractLsb' 24 5 = 0b10001#5
  | .regsh => w.extractLsb' 21 8 = 0b10000001#8
  | .long => w.extractLsb' 14 15 = 0b100000000000000#15
  | .filler => w.extractLsb' 21 8 = 0b10000000#8 ∧ w.extractLsb' 14 7 ≠ 0#7
  | .reserved => w.extractLsb' 24 5 = 0b10000#5 ∧ 2 ≤ (w.extractLsb' 21 3).toNat

/-- Every word is in a group. -/
theorem exists_group (w : Word) : ∃ g : WordGroup, g.Has w := by
  by_contra! hnone
  have hshort := hnone .short
  have hreg := hnone .reg
  have hbrImm := hnone .brImm
  have hbrReg := hnone .brReg
  have hmemory := hnone .memory
  have hctrl := hnone .ctrl
  have hregsh := hnone .regsh
  have hlong := hnone .long
  have hfiller := hnone .filler
  have hreserved := hnone .reserved
  simp (disch := decide) only [WordGroup.Has, field_eq_iff, toNat_field, bit_eq_false_iff, BitVec.reduceToNat,
    Nat.reduceSub, ne_eq] at *
  omega

/-- The group whose words take the next slot as their operand (30_encoding.md R105). -/
def WordGroup.takesOperand : WordGroup → Bool
  | .long => true
  | _ => false

theorem WordGroup.Has.isLong_eq {g : WordGroup} {w : Word} (h : g.Has w) : isLong w = g.takesOperand := by
  rw [Bool.eq_iff_iff, isLong, beq_iff_eq]
  cases g <;>
    simp (disch := decide) only [Has, takesOperand, field_eq_iff, toNat_field, bit_eq_false_iff, BitVec.reduceToNat,
      Nat.reduceSub, ne_eq, Bool.false_eq_true, iff_false, iff_true] at h ⊢ <;>
    omega

/-! The decoder on each group (30_encoding.md R96). -/

section Decode
variable {w : Word} {next : Word}

theorem decode_of_short (h : WordGroup.short.Has w) : decode w next = decodeShort w := by
  rw [decode, if_pos]
  exact h

/-- Bit 28 and bits 27:26 by bits 28:26. -/
theorem topBits_of_field {c : BitVec 3} (h : w.extractLsb' 26 3 = c) (hc : 4 ≤ c.toNat) :
    w.getLsbD 28 = true ∧ (w.extractLsb' 26 2).toNat = c.toNat - 4 := by
  rw [field_eq_iff w c (by decide) (by decide)] at h
  rw [bit_eq_true_iff w (by decide) (by decide), toNat_field w (by decide) (by decide)]
  omega

theorem decode_of_reg (h : WordGroup.reg.Has w) : decode w next = decodeReg w := by
  obtain ⟨h28, h26⟩ := topBits_of_field h (by decide)
  simp only [decode, h28, h26, Bool.true_eq_false, if_false]
  rfl

theorem decode_of_brImm (h : WordGroup.brImm.Has w) :
    decode w next = .ok (if w.getLsbD 25 then .blImm (predField w) (branchImmOffsetField w)
      else .bImm (predField w) (branchImmOffsetField w)) := by
  obtain ⟨h28, h26⟩ := topBits_of_field h (by decide)
  simp only [decode, h28, h26, Bool.true_eq_false, if_false]
  exact (apply_ite ..).symm

theorem decode_of_brReg (h : WordGroup.brReg.Has w) :
    decode w next = .ok (if w.getLsbD 25 then .blReg (predField w) (branchRegOffsetField w) (rsField w)
      else .bReg (predField w) (branchRegOffsetField w) (rsField w)) := by
  obtain ⟨h28, h26⟩ := topBits_of_field h (by decide)
  simp only [decode, h28, h26, Bool.true_eq_false, if_false]
  exact (apply_ite ..).symm

/-- Bits 28:26 = 100: the groups that bits 25:14 tell apart. -/
theorem decode_of_rest (h : w.extractLsb' 26 3 = 0b100#3) :
    decode w next =
      if w.getLsbD 25 then decodeMemory w
      else if w.getLsbD 24 then decodeControl w
      else if w.extractLsb' 21 3 = 0b001#3 then decodeRegsh w
      else if w.extractLsb' 14 10 = 0#10 then decodeLong w next
      else if w.extractLsb' 21 3 = 0b000#3 then .error .nonzeroLongFiller
      else .error .undefinedGroup := by
  obtain ⟨h28, h26⟩ := topBits_of_field h (by decide)
  simp only [decode, h28, h26, Bool.true_eq_false, if_false]
  rfl

theorem decode_of_memory (h : WordGroup.memory.Has w) : decode w next = decodeMemory w := by
  rw [decode_of_rest, if_pos] <;>
    simp (disch := decide) only [WordGroup.Has, field_eq_iff, bit_eq_true_iff, BitVec.reduceToNat,
      Nat.reduceSub] at h ⊢ <;>
    omega

theorem decode_of_ctrl (h : WordGroup.ctrl.Has w) : decode w next = decodeControl w := by
  rw [decode_of_rest, if_neg, if_pos] <;>
    simp (disch := decide) only [WordGroup.Has, field_eq_iff, bit_eq_true_iff, BitVec.reduceToNat,
      Nat.reduceSub] at h ⊢ <;>
    omega

theorem decode_of_regsh (h : WordGroup.regsh.Has w) : decode w next = decodeRegsh w := by
  rw [decode_of_rest, if_neg, if_neg, if_pos] <;>
    simp (disch := decide) only [WordGroup.Has, field_eq_iff, bit_eq_true_iff, BitVec.reduceToNat,
      Nat.reduceSub] at h ⊢ <;>
    omega

theorem decode_of_long (h : WordGroup.long.Has w) : decode w next = decodeLong w next := by
  rw [decode_of_rest, if_neg, if_neg, if_neg, if_pos] <;>
    simp (disch := decide) only [WordGroup.Has, field_eq_iff, bit_eq_true_iff, BitVec.reduceToNat,
      Nat.reduceSub] at h ⊢ <;>
    omega

theorem decode_of_filler (h : WordGroup.filler.Has w) : decode w next = .error .nonzeroLongFiller := by
  rw [decode_of_rest, if_neg, if_neg, if_neg, if_neg, if_pos] <;>
    simp (disch := decide) only [WordGroup.Has, field_eq_iff, bit_eq_true_iff, BitVec.reduceToNat,
      Nat.reduceSub, ne_eq] at h ⊢ <;>
    omega

theorem decode_of_reserved (h : WordGroup.reserved.Has w) : decode w next = .error .undefinedGroup := by
  rw [decode_of_rest, if_neg, if_neg, if_neg, if_neg, if_neg] <;>
    simp (disch := decide) only [WordGroup.Has, field_eq_iff, toNat_field, bit_eq_true_iff, BitVec.reduceToNat,
      Nat.reduceSub] at h ⊢ <;>
    omega

end Decode

/-! The opcodes that no instruction has (30_encoding.md R97 to R100, R103). -/

section Errors
variable {w : Word}

/-- The ALU opcode table of the short, register and long formats has the same holes. -/
theorem decodeAlu_error_iff (next : Word) :
    ∀ d ∈ [decodeShort w, decodeReg w, decodeLong w next], (∃ e, d = .error e) ↔
      12 ≤ (aluOpField w).toNat ∨ ((aluOpField w).toNat = 7 ∧ (ctypeField w).toNat = 3) := by
  have hop := (aluOpField w).isLt
  have hct := (ctypeField w).isLt
  simp only [decodeShort, decodeReg, decodeLong, List.forall_mem_cons]
  generalize (aluOpField w).toNat = op at hop ⊢
  generalize (ctypeField w).toNat = ct at hct ⊢
  obtain rfl | hne := eq_or_ne op 7
  · interval_cases ct <;> simp
  · interval_cases op <;> simp at hne ⊢

theorem decodeRegsh_error_iff : (∃ e, decodeRegsh w = .error e) ↔
    (aluOpField w).toNat < 8 ∨ 11 < (aluOpField w).toNat := by
  have hop := (aluOpField w).isLt
  simp only [decodeRegsh]
  generalize (aluOpField w).toNat = op at hop ⊢
  interval_cases op <;> simp

theorem decodeControl_error_iff : (∃ e, decodeControl w = .error e) ↔
    (controlOpField w).toNat = 0 ∨ 12 ≤ (controlOpField w).toNat := by
  have hop := (controlOpField w).isLt
  simp only [decodeControl]
  generalize (controlOpField w).toNat = op at hop ⊢
  interval_cases op <;> simp

theorem decodeMemory_ne_error : ¬∃ e, decodeMemory w = .error e := by
  rintro ⟨e, h⟩
  unfold decodeMemory at h
  split at h <;> cases h

end Errors

/-- Settles O3: each group has its shapes of R103, and in each the numbers of the other groups' bits are excluded. -/
theorem undefinedShapesRefused : Obligations.UndefinedShapesRefused := by
  intro w next
  have halu := decodeAlu_error_iff (w := w) next
  simp only [List.forall_mem_cons] at halu
  obtain ⟨hshort, hreg, hlong, -⟩ := halu
  obtain ⟨g, h⟩ := exists_group w
  cases g
  case' short => rw [decode_of_short h, hshort]
  case' reg => rw [decode_of_reg h, hreg]
  case' brImm => rw [decode_of_brImm h]
  case' brReg => rw [decode_of_brReg h]
  case' memory => rw [decode_of_memory h, iff_false_intro decodeMemory_ne_error]
  case' ctrl => rw [decode_of_ctrl h, decodeControl_error_iff]
  case' regsh => rw [decode_of_regsh h, decodeRegsh_error_iff]
  case' long => rw [decode_of_long h, hlong]
  case' filler => rw [decode_of_filler h]
  case' reserved => rw [decode_of_reserved h]
  all_goals
    simp (disch := decide) only [WordGroup.Has, aluOpField, ctypeField, controlOpField, toNat_field,
      bit_eq_false_iff, BitVec.reduceToNat, Nat.reduceSub, ← BitVec.toNat_inj, ne_eq, reduceCtorEq, exists_false,
      true_iff, false_iff, Except.error.injEq, exists_eq'] at h ⊢
    omega

end Sys2Proof
end

section
/-! PROOFS. The encoder and the decoder are inverse: the group and the fields of each format's words, format by format,
and then every instruction (30_encoding.md R82 to R96, R105). -/

namespace Sys2Proof

/-! Each field type and its bits. -/

@[simp] theorem regOfBits_bitsOfReg (r : Reg) : regOfBits (bitsOfReg r) = r := by
  simp [regOfBits, bitsOfReg]

@[simp] theorem predRegOfBits_bitsOfPredReg (r : PredReg) : predRegOfBits (bitsOfPredReg r) = r := by
  simp [predRegOfBits, bitsOfPredReg]

@[simp] theorem shfOfBits_bitsOfShf (shf : Shf) : shfOfBits (bitsOfShf shf) = shf := by
  cases shf <;> rfl

@[simp] theorem flushTypeOfBits_bitsOfFlushType (ty : FlushType) : flushTypeOfBits (bitsOfFlushType ty) = ty := by
  cases ty <;> rfl

/-- A store's OFFSET is in its word in two parts (30_encoding.md R89, R108). -/
@[simp] theorem storeOffset_parts (off : BitVec 11) : off.extractLsb' 5 6 ++ off.extractLsb' 0 5 = off :=
  (BitVec.extractLsb'_append_extractLsb'_eq_extractLsb' (len₁ := 5) (start₁ := 0) rfl).trans
    BitVec.extractLsb'_eq_self

/-- A field of a concatenation is that of the part in which it lies: what is above the last part, or the last part. -/
theorem field_of_append {n m start len : Nat} (hi : BitVec n) (lo : BitVec m) :
    (m ≤ start → (hi ++ lo).extractLsb' start len = hi.extractLsb' (start - m) len) ∧
    (start + len ≤ m → (hi ++ lo).extractLsb' start len = lo.extractLsb' start len) :=
  ⟨BitVec.extractLsb'_append_eq_of_le, BitVec.extractLsb'_append_eq_of_add_le⟩

theorem bit_of_append {n m j : Nat} (hi : BitVec n) (lo : BitVec m) :
    (m ≤ j → (hi ++ lo).getLsbD j = hi.getLsbD (j - m)) ∧ (j < m → (hi ++ lo).getLsbD j = lo.getLsbD j) :=
  ⟨fun h => by rw [BitVec.getLsbD_append, if_neg (by omega)], fun h => by rw [BitVec.getLsbD_append, if_pos h]⟩

/-! The formats (30_encoding.md R82 to R94): the group and the fields of each one's words. -/

section Formats
variable (p : Pred) (op : BitVec 4) (ct lsu : BitVec 3) (rt rd rs : Reg) (pd : PredReg) (shf : Shf) (amt : BitVec 5)

theorem fields_fmtAlu2Short (c : BitVec 10) (rot : BitVec 4) :
    let w := fmtAlu2Short p op c rot rd rs
    WordGroup.short.Has w ∧ predField w = p ∧ constantField w = c ∧ rotateField w = rot ∧ aluOpField w = op ∧
      rdField w = rd ∧ rsField w = rs := by
  simp (disch := decide) only [fmtAlu2Short, bitsOfPred, WordGroup.Has, predField, constantField, rotateField,
    aluOpField, rdField, rsField, field_of_append, bit_of_append, Nat.reduceSub]
  simp

theorem fields_fmtCmpShort (c : BitVec 10) (rot : BitVec 4) :
    let w := fmtCmpShort p ct c rot pd rs
    WordGroup.short.Has w ∧ predField w = p ∧ constantField w = c ∧ rotateField w = rot ∧ aluOpField w = 7#4 ∧
      ctypeField w = ct ∧ pdField w = pd ∧ rsField w = rs := by
  simp (disch := decide) only [fmtCmpShort, bitsOfPred, WordGroup.Has, predField, constantField, rotateField,
    aluOpField, ctypeField, pdField, rsField, field_of_append, bit_of_append, Nat.reduceSub]
  simp

theorem fields_fmtAlu1Short (c : BitVec 10) (rot : BitVec 4) (hi : BitVec 5) :
    let w := fmtAlu1Short p op c rot rd hi
    WordGroup.short.Has w ∧ predField w = p ∧ constantField w = c ∧ rotateField w = rot ∧ aluOpField w = op ∧
      rdField w = rd ∧ constHiField w = hi := by
  simp (disch := decide) only [fmtAlu1Short, bitsOfPred, WordGroup.Has, predField, constantField, rotateField,
    aluOpField, rdField, constHiField, field_of_append, bit_of_append, Nat.reduceSub]
  simp

theorem fields_fmtAlu2Reg :
    let w := fmtAlu2Reg p op amt shf rt rd rs
    WordGroup.reg.Has w ∧ predField w = p ∧ shiftAmtField w = amt ∧ shfField w = shf ∧ rtField w = rt ∧
      aluOpField w = op ∧ rdField w = rd ∧ rsField w = rs := by
  simp (disch := decide) only [fmtAlu2Reg, bitsOfPred, WordGroup.Has, predField, shiftAmtField, shfField, rtField,
    aluOpField, rdField, rsField, field_of_append, bit_of_append, Nat.reduceSub]
  simp

theorem fields_fmtCmpReg :
    let w := fmtCmpReg p ct amt shf rt pd rs
    WordGroup.reg.Has w ∧ predField w = p ∧ shiftAmtField w = amt ∧ shfField w = shf ∧ rtField w = rt ∧
      aluOpField w = 7#4 ∧ ctypeField w = ct ∧ pdField w = pd ∧ rsField w = rs := by
  simp (disch := decide) only [fmtCmpReg, bitsOfPred, WordGroup.Has, predField, shiftAmtField, shfField, rtField,
    aluOpField, ctypeField, pdField, rsField, field_of_append, bit_of_append, Nat.reduceSub]
  simp

theorem fields_fmtAlu1Reg :
    let w := fmtAlu1Reg p op amt shf rt rd
    WordGroup.reg.Has w ∧ predField w = p ∧ shiftAmtField w = amt ∧ shfField w = shf ∧ rtField w = rt ∧
      aluOpField w = op ∧ rdField w = rd := by
  simp (disch := decide) only [fmtAlu1Reg, bitsOfPred, WordGroup.Has, predField, shiftAmtField, shfField, rtField,
    aluOpField, rdField, field_of_append, bit_of_append, Nat.reduceSub]
  simp

theorem fields_fmtLoad (off : BitVec 12) :
    let w := fmtLoad p lsu off rd rs
    WordGroup.memory.Has w ∧ predField w = p ∧ lsuField w = lsu ∧ loadOffsetField w = off ∧ rdField w = rd ∧
      rsField w = rs := by
  simp (disch := decide) only [fmtLoad, bitsOfPred, WordGroup.Has, predField, lsuField, loadOffsetField, rdField,
    rsField, field_of_append, bit_of_append, Nat.reduceSub]
  simp

theorem fields_fmtStore (off : BitVec 11) (m : Bool) :
    let w := fmtStore p lsu off m rt rs
    WordGroup.memory.Has w ∧ predField w = p ∧ lsuField w = lsu ∧ storeOffsetField w = off ∧ w.getLsbD 13 = m ∧
      rtField w = rt ∧ rsField w = rs := by
  simp (disch := decide) only [fmtStore, bitsOfPred, WordGroup.Has, predField, lsuField, storeOffsetField, rtField,
    rsField, field_of_append, bit_of_append, Nat.reduceSub]
  simp

theorem fields_fmtBrImm (l : Bool) (off : BitVec 25) :
    let w := fmtBrImm p l off
    WordGroup.brImm.Has w ∧ predField w = p ∧ w.getLsbD 25 = l ∧ branchImmOffsetField w = off := by
  simp (disch := decide) only [fmtBrImm, bitsOfPred, WordGroup.Has, predField, branchImmOffsetField, field_of_append,
    bit_of_append, Nat.reduceSub]
  simp

theorem fields_fmtBrReg (l : Bool) (off : BitVec 20) :
    let w := fmtBrReg p l off rs
    WordGroup.brReg.Has w ∧ predField w = p ∧ w.getLsbD 25 = l ∧ branchRegOffsetField w = off ∧ rsField w = rs := by
  simp (disch := decide) only [fmtBrReg, bitsOfPred, WordGroup.Has, predField, branchRegOffsetField, rsField,
    field_of_append, bit_of_append, Nat.reduceSub]
  simp

theorem fields_fmtCtrl (b19 b13 : Bool) (f18 f9 f4 : BitVec 5) (f11 : BitVec 2) :
    let w := fmtCtrl p op b19 f18 b13 f11 f9 f4
    WordGroup.ctrl.Has w ∧ predField w = p ∧ controlOpField w = op ∧ w.getLsbD 19 = b19 ∧ rtField w = regOfBits f18 ∧
      w.getLsbD 13 = b13 ∧ w.extractLsb' 10 2 = f11 ∧ rdField w = regOfBits f9 ∧ rsField w = regOfBits f4 := by
  simp (disch := decide) only [fmtCtrl, bitsOfPred, WordGroup.Has, predField, controlOpField, rtField, rdField,
    rsField, field_of_append, bit_of_append, Nat.reduceSub]
  simp

theorem fields_fmtAlu1Regsh :
    let w := fmtAlu1Regsh p op shf rt rd rs
    WordGroup.regsh.Has w ∧ predField w = p ∧ shfField w = shf ∧ rtField w = rt ∧ aluOpField w = op ∧
      rdField w = rd ∧ rsField w = rs := by
  simp (disch := decide) only [fmtAlu1Regsh, bitsOfPred, WordGroup.Has, predField, shfField, rtField, aluOpField,
    rdField, rsField, field_of_append, bit_of_append, Nat.reduceSub]
  simp

theorem fields_fmtAluLong (low : BitVec 5) :
    let w := fmtAluLong p op rd low
    WordGroup.long.Has w ∧ predField w = p ∧ aluOpField w = op ∧ rdField w = rd ∧ rsField w = regOfBits low := by
  simp (disch := decide) only [fmtAluLong, bitsOfPred, WordGroup.Has, predField, aluOpField, rdField, rsField,
    field_of_append, bit_of_append, Nat.reduceSub]
  simp

theorem fields_fmtCmpLong :
    let w := fmtCmpLong p ct pd rs
    WordGroup.long.Has w ∧ predField w = p ∧ aluOpField w = 7#4 ∧ ctypeField w = ct ∧ pdField w = pd ∧
      rsField w = rs := by
  simp (disch := decide) only [fmtCmpLong, bitsOfPred, WordGroup.Has, predField, aluOpField, ctypeField, pdField,
    rsField, field_of_append, bit_of_append, Nat.reduceSub]
  simp

end Formats

/-! Every instruction. -/

/-- The group of a format's words. -/
def Format.group : Format → WordGroup
  | .alu2Short | .cmpShort | .alu1Short => .short
  | .alu2Reg | .cmpReg | .alu1Reg => .reg
  | .load | .store => .memory
  | .brImm => .brImm
  | .brReg => .brReg
  | .ctrl => .ctrl
  | .alu1Regsh => .regsh
  | .aluLong => .long

/-- An encoded instruction is in the group of its format. -/
theorem encodeWord_group (i : Instr) : i.format.group.Has (encodeWord i) := by
  cases i with
  | addShort | andShort | norShort | orShort | subShort | rsbShort | xorShort => exact (fields_fmtAlu2Short ..).1
  | cmpltuShort | cmpleuShort | cmpeqShort | cmpltsShort | cmplesShort | cmpbsShort | cmpbcShort =>
    exact (fields_fmtCmpShort ..).1
  | movShort | mvnShort | sxbShort | sxhShort => exact (fields_fmtAlu1Short ..).1
  | addReg | andReg | norReg | orReg | subReg | rsbReg | xorReg => exact (fields_fmtAlu2Reg ..).1
  | cmpltuReg | cmpleuReg | cmpeqReg | cmpltsReg | cmplesReg | cmpbsReg | cmpbcReg => exact (fields_fmtCmpReg ..).1
  | movReg | mvnReg | sxbReg | sxhReg => exact (fields_fmtAlu1Reg ..).1
  | lb | lh | lw | ll => exact (fields_fmtLoad ..).1
  | sb | sh | sw | sc => exact (fields_fmtStore ..).1
  | bImm | blImm => exact (fields_fmtBrImm ..).1
  | bReg | blReg => exact (fields_fmtBrReg ..).1
  | brk | syscall | fence | eret | flush | mfc | mtc | mult | div | mfhi | mthi => exact (fields_fmtCtrl ..).1
  | movRegsh | mvnRegsh | sxbRegsh | sxhRegsh => exact (fields_fmtAlu1Regsh ..).1
  | addLong | andLong | norLong | orLong | subLong | rsbLong | xorLong | movLong | mvnLong | sxbLong | sxhLong =>
    exact (fields_fmtAluLong ..).1
  | cmpltuLong | cmpleuLong | cmpeqLong | cmpltsLong | cmplesLong | cmpbsLong | cmpbcLong =>
    exact (fields_fmtCmpLong ..).1

/-- The instructions with an operand word are those of format ALU_LONG (30_encoding.md R94, R105). -/
theorem longOperand_isSome (i : Instr) : (longOperand i).isSome = i.format.group.takesOperand := by
  cases i <;> rfl

theorem isLong_encodeWord (i : Instr) : isLong (encodeWord i) = (longOperand i).isSome := by
  rw [(encodeWord_group i).isLong_eq, longOperand_isSome]

/-- Decoding gives back the instruction that was encoded, from its words. -/
theorem decode_encodeWord (i : Instr) (after : Word) :
    decode (encodeWord i) ((longOperand i).getD after) = .ok i := by
  have hgroup := encodeWord_group i
  cases i with
  | addShort | andShort | norShort | orShort | subShort | rsbShort | xorShort =>
    rw [decode_of_short hgroup]
    simp [encodeWord, decodeShort, fields_fmtAlu2Short]
  | cmpltuShort | cmpleuShort | cmpeqShort | cmpltsShort | cmplesShort | cmpbsShort | cmpbcShort =>
    rw [decode_of_short hgroup]
    simp [encodeWord, decodeShort, fields_fmtCmpShort]
  | movShort | mvnShort | sxbShort | sxhShort =>
    rw [decode_of_short hgroup]
    simp [encodeWord, decodeShort, fields_fmtAlu1Short]
  | addReg | andReg | norReg | orReg | subReg | rsbReg | xorReg =>
    rw [decode_of_reg hgroup]
    simp [encodeWord, decodeReg, fields_fmtAlu2Reg]
  | cmpltuReg | cmpleuReg | cmpeqReg | cmpltsReg | cmplesReg | cmpbsReg | cmpbcReg =>
    rw [decode_of_reg hgroup]
    simp [encodeWord, decodeReg, fields_fmtCmpReg]
  | movReg | mvnReg | sxbReg | sxhReg =>
    rw [decode_of_reg hgroup]
    simp [encodeWord, decodeReg, fields_fmtAlu1Reg]
  | lb | lh | lw | ll =>
    rw [decode_of_memory hgroup]
    simp [encodeWord, decodeMemory, fields_fmtLoad]
  | sb | sh | sw | sc =>
    rw [decode_of_memory hgroup]
    simp only [encodeWord, decodeMemory, fields_fmtStore]
    rfl
  | bImm | blImm =>
    rw [decode_of_brImm hgroup]
    simp only [encodeWord, fields_fmtBrImm]
    rfl
  | bReg | blReg =>
    rw [decode_of_brReg hgroup]
    simp only [encodeWord, fields_fmtBrReg]
    rfl
  | brk | syscall | fence | eret | flush | mfc | mtc | mult | div | mfhi | mthi =>
    rw [decode_of_ctrl hgroup]
    simp only [encodeWord, decodeControl, fields_fmtCtrl, regOfBits_bitsOfReg, flushTypeOfBits_bitsOfFlushType]
    rfl
  | movRegsh | mvnRegsh | sxbRegsh | sxhRegsh =>
    rw [decode_of_regsh hgroup]
    simp [encodeWord, decodeRegsh, fields_fmtAlu1Regsh]
  | addLong | andLong | norLong | orLong | subLong | rsbLong | xorLong | movLong | mvnLong | sxbLong | sxhLong =>
    rw [decode_of_long hgroup]
    simp [encodeWord, decodeLong, fields_fmtAluLong, longOperand]
  | cmpltuLong | cmpleuLong | cmpeqLong | cmpltsLong | cmplesLong | cmpbsLong | cmpbcLong =>
    rw [decode_of_long hgroup]
    simp [encodeWord, decodeLong, fields_fmtCmpLong, longOperand]

/-! Bytes (20_memory.md R43, R44). -/

theorem wordOfBytes_bytes (w : Word) :
    wordOfBytes (w.extractLsb' 0 8) (w.extractLsb' 8 8) (w.extractLsb' 16 8) (w.extractLsb' 24 8) = w := by
  ext i hi
  simp only [wordOfBytes, ← BitVec.getLsbD_eq_getElem, BitVec.getLsbD_append, BitVec.getLsbD_extractLsb']
  interval_cases i <;> rfl

/-- Two words in memory decode as the first one with the second one after it, whatever bytes follow. -/
theorem decodeBytes_words (w next : Word) (rest : List Byte) :
    decodeBytes (bytesOfWord w ++ (bytesOfWord next ++ rest)) = (decode w next).toOption := by
  simp [decodeBytes, bytesOfWord, wordOfBytes_bytes]

/-- The bytes of an instruction and of the word after it begin with its first word and with the word that its decoding
takes: its operand word, or else the one after it. -/
theorem encodeBytes_append (i : Instr) (after : Word) : ∃ rest, encodeBytes i ++ bytesOfWord after =
    bytesOfWord (encodeWord i) ++ (bytesOfWord ((longOperand i).getD after) ++ rest) := by
  cases h : longOperand i with
  | none => exact ⟨[], by simp [encodeBytes, encode, h]⟩
  | some imm => exact ⟨bytesOfWord after, by simp [encodeBytes, encode, h]⟩

/-- Decoding gives back the instruction that was encoded, from its bytes. -/
theorem decodeBytes_encodeBytes (i : Instr) (after : Word) :
    decodeBytes (encodeBytes i ++ bytesOfWord after) = some i := by
  obtain ⟨rest, hbytes⟩ := encodeBytes_append i after
  rw [hbytes, decodeBytes_words, decode_encodeWord]
  rfl

/-- Settles O1: an encoded instruction is in the group of its format, its fields are those it was made from, and its
bytes are those of its words. -/
theorem decodeOfEncode : Obligations.DecodeOfEncode :=
  fun i after => ⟨decode_encodeWord i after, isLong_encodeWord i, decodeBytes_encodeBytes i after⟩

end Sys2Proof
end

section
/-! PROOFS. Short immediates, branch offsets, effective addresses and the address bits that an access ignores
(30_encoding.md R106 to R108, 20_memory.md R45), and the encodings without a meaning (30_encoding.md R104). -/

namespace Sys2Proof.Machine

/-! Short immediates (30_encoding.md R106). -/

/-- A rotation by less than a word is the one computed on natural numbers (40_packet_execution.md R123). -/
theorem rotateRight_eq_specRor (v : Word) {n : Nat} (hn : n < 32) : v.rotateRight n = specRor v n := by
  have hlow : v.toNat / 2 ^ n < 2 ^ (32 - n) := by
    rw [Nat.div_lt_iff_lt_mul (by positivity), ← Nat.pow_add, Nat.sub_add_cancel hn.le]
    exact v.isLt
  have hhigh : v.toNat * 2 ^ (32 - n) % 2 ^ 32 = v.toNat % 2 ^ n * 2 ^ (32 - n) := by
    rw [← Nat.mul_mod_mul_right, ← Nat.pow_add, Nat.add_sub_cancel' hn.le]
  have hsum : (v.rotateRight n).toNat = v.toNat / 2 ^ n + v.toNat * 2 ^ (32 - n) % 2 ^ 32 := by
    rw [BitVec.toNat_rotateRight, Nat.mod_eq_of_lt hn, Nat.shiftRight_eq_div_pow, Nat.shiftLeft_eq, hhigh, Nat.or_comm,
      ← Nat.shiftLeft_eq, ← Nat.shiftLeft_add_eq_or_of_lt hlow, Nat.add_comm]
  apply BitVec.eq_of_toNat_eq
  rw [specRor, BitVec.toNat_ofNat, ← Nat.add_mod_mod, ← hsum, Nat.mod_eq_of_lt (v.rotateRight n).isLt]

/-- Settles O5: the constants are at most 15 bits and the amounts at most 30, so each is a rotation of a number. -/
theorem shortImmediates : Obligations.ShortImmediates := by
  intro c hi rot
  have hrot : 2 * rot.toNat < 32 := by omega
  have hc : c.zeroExtend 32 = BitVec.ofNat 32 c.toNat := (BitVec.ofNat_toNat ..).symm
  have hhi : (hi ++ c).zeroExtend 32 = BitVec.ofNat 32 (hi.toNat * 1024 + c.toNat) := by
    apply BitVec.eq_of_toNat_eq
    rw [BitVec.toNat_setWidth, BitVec.toNat_ofNat, BitVec.toNat_append, ← Nat.shiftLeft_add_eq_or_of_lt c.isLt,
      Nat.shiftLeft_eq]
  exact ⟨by rw [shortImm10, rotateRight_eq_specRor _ hrot, hc], by rw [shortImm15, rotateRight_eq_specRor _ hrot, hhi]⟩

/-! Offsets and addresses (30_encoding.md R107, R108, 20_memory.md R45). -/

/-- A packet offset in bytes (30_encoding.md R107). -/
theorem signExtend_packets {n : Nat} (off : BitVec n) :
    (off ++ 0#4).signExtend 32 = BitVec.ofInt 32 (16 * off.toInt) := by
  rw [BitVec.signExtend, BitVec.toInt_append_zero]
  rfl

/-- Settles O8: the offsets are sign extensions, and an access clears the low bits of its address. -/
theorem offsetsAndAddresses : Obligations.OffsetsAndAddresses :=
  ⟨signExtend_packets, signExtend_packets, fun _ _ => rfl, fun _ _ => rfl, toNat_align⟩

/-! Encodings without a meaning (30_encoding.md R104). -/

/-- Settles O19: the lane of each is refused, so the instruction alone is (R104). -/
theorem unknownBitsRefused : Obligations.UnknownBitsRefused := by
  intro p s hp
  refine ⟨fun x hx off rt rs => ?_, fun ty rs => execAlone_refused p _ s _ hp rfl⟩
  simp only [List.mem_cons, List.not_mem_nil, or_false] at hx
  rcases hx with rfl | rfl | rfl | rfl <;> exact execAlone_refused p _ s _ hp rfl

end Sys2Proof.Machine
end

section
/-! PROOFS. Where a slot's refusal and a slot's access come from, and why a step stops (30_encoding.md R104,
20_memory.md R71, 40_packet_execution.md R118). -/

namespace Sys2Proof.Machine

/-! Refusals and accesses of lanes. -/

/-- The lane has a meaning and accesses no memory. -/
def Lane.Plain (l : Lane) : Prop := l.refusal = none ∧ l.access = none

section Lanes
variable {s : State} {k : Fin 4}

theorem Lane.privileged_plain {l : Lane} (h : l.Plain) : (l.privileged s).Plain := by
  unfold Lane.privileged
  split
  · exact ⟨rfl, rfl⟩
  · exact h

theorem Lane.flush_plain (ty : FlushType) (va : Word) : (Lane.flush s k ty va).Plain := by
  cases ty with
  | data | inst =>
    unfold Lane.flush Lane.flushLine
    dsimp only
    split <;> exact ⟨rfl, rfl⟩
  | dtlb | itlb => exact ⟨rfl, rfl⟩

theorem laneDiv_plain (sg : Bool) (rt : Reg) (wide : Bool) (rd rs : Reg) : (laneDiv sg rt wide rd rs s).Plain := by
  unfold laneDiv
  split <;> exact ⟨rfl, rfl⟩

theorem laneMfc_plain (rd : Reg) (n : CprNum) : (laneMfc rd n s).Plain := by
  unfold laneMfc
  split
  · exact ⟨rfl, rfl⟩
  · exact Lane.privileged_plain ⟨rfl, rfl⟩

theorem laneMtc_plain (n : CprNum) (rs : Reg) : (laneMtc n rs s).Plain := by
  unfold laneMtc
  split
  · exact ⟨rfl, rfl⟩
  · exact Lane.privileged_plain ⟨rfl, rfl⟩

theorem Lane.load_refusal (sz : Size) (sets : Bool) (rd : Reg) (ea : Word) :
    (Lane.load s k sz sets rd ea).refusal = none := by
  rcases Lane.load_cases s k sz sets rd ea with ⟨_, -, h⟩ | ⟨_, -, h⟩ <;> rw [h]

theorem Lane.store_refusal (sz : Size) (m : Bool) (ea v : Word) :
    (Lane.store s k sz m ea v).refusal = if m then some .storeWithMBit else none := by
  cases m with
  | true => rfl
  | false => rcases Lane.store_cases s k sz ea v with ⟨_, -, h⟩ | ⟨_, -, h⟩ <;> rw [h] <;> rfl

theorem Lane.storeConditional_refusal (m : Bool) (ea v : Word) :
    (Lane.storeConditional s k m ea v).refusal = if m then some .storeWithMBit else none := by
  cases m with
  | true => rfl
  | false =>
    cases h : (dataTranslation s k .word ea true).result with
    | error f => rw [Lane.storeConditional_of_error h]; rfl
    | ok pa => rw [Lane.storeConditional_of_ok h]; rfl

end Lanes

/-- Every instruction that is no memory instruction and no FLUSH with C = 1 is plain. -/
theorem issue_plain {i : Instr} (k : Fin 4) (s : State) (hmem : i.format.type ≠ .memory)
    (hflush : ∀ p ty rs, i ≠ .flush p true ty rs) : (issue i k s).Plain := by
  cases i with
  | lb | lh | lw | ll | sb | sh | sw | sc => exact absurd rfl hmem
  | eret => exact Lane.privileged_plain ⟨rfl, rfl⟩
  | flush p c ty rs =>
    cases c with
    | true => exact absurd rfl (hflush p ty rs)
    | false => exact Lane.flush_plain ty _
  | mfc => exact laneMfc_plain ..
  | mtc => exact laneMtc_plain ..
  | div => exact laneDiv_plain ..
  | _ => exact ⟨rfl, rfl⟩

/-- Only a memory instruction accesses data memory. -/
theorem type_of_issue_access {i : Instr} {k : Fin 4} {s : State} {a : Access} (h : (issue i k s).access = some a) :
    i.format.type = .memory := by
  by_contra hmem
  by_cases hflush : ∃ p ty rs, i = .flush p true ty rs
  · obtain ⟨p, ty, rs, rfl⟩ := hflush
    cases h
  · push Not at hflush
    obtain ⟨-, hnone⟩ := issue_plain k s hmem hflush
    rw [hnone] at h
    cases h

theorem refusal_of_mBit {m : Bool} {r : Refusal} (h : (if m then some Refusal.storeWithMBit else none) = some r) :
    m = true ∧ r = .storeWithMBit := by
  cases m <;> cases h
  exact ⟨rfl, rfl⟩

/-- An instruction is without a meaning for its M bit or its C bit only (30_encoding.md R104). -/
theorem issue_refusal_cases {i : Instr} {k : Fin 4} {s : State} {r : Refusal} (h : (issue i k s).refusal = some r) :
    (r = .storeWithMBit ∧ ∃ x ∈ [Instr.sb, Instr.sh, Instr.sw, Instr.sc], ∃ p off rt rs, i = x p off true rt rs) ∨
      (r = .flushWithCBit ∧ ∃ p ty rs, i = .flush p true ty rs) := by
  by_cases hmem : i.format.type = .memory
  · left
    cases i with
    | lb | lh | lw | ll => cases (Lane.load_refusal ..).symm.trans h
    | sb p off m rt rs | sh p off m rt rs | sw p off m rt rs =>
      obtain ⟨rfl, hr⟩ := refusal_of_mBit ((Lane.store_refusal ..).symm.trans h)
      exact ⟨hr, _, by simp, p, off, rt, rs, rfl⟩
    | sc p off m rt rs =>
      obtain ⟨rfl, hr⟩ := refusal_of_mBit ((Lane.storeConditional_refusal ..).symm.trans h)
      exact ⟨hr, _, by simp, p, off, rt, rs, rfl⟩
    | _ => cases hmem
  · right
    by_cases hflush : ∃ p ty rs, i = .flush p true ty rs
    · obtain ⟨p, ty, rs, rfl⟩ := hflush
      exact ⟨(Option.some.inj h).symm, p, ty, rs, rfl⟩
    · push Not at hflush
      obtain ⟨hnone, -⟩ := issue_plain k s hmem hflush
      cases hnone.symm.trans h

/-! Refusals and accesses of slots (40_packet_execution.md R112, R113). -/

section Slots
variable {pk : Packet} {s : State} {k : Fin 4}

/-- A slot without a meaning, or with an access, holds an instruction that executes. -/
theorem laneAt_executing (h : ¬(laneAt pk s k).Plain) : ∃ i, slotAt pk k = .instr i ∧ s.holds i.pred = true ∧
    laneAt pk s k = if mayOccupy i k then issue i k s else (issue i k s).misplaced := by
  cases hslot : slotAt pk k with
  | operand =>
    rw [laneAt, hslot] at h
    exact absurd ⟨rfl, rfl⟩ h
  | undefined p e =>
    rw [laneAt, hslot, slotLane, Lane.gate] at h
    split at h <;> exact absurd ⟨rfl, rfl⟩ h
  | instr i =>
    cases hp : s.holds i.pred with
    | true => exact ⟨i, rfl, hp, by rw [laneAt, hslot, slotLane, Lane.gate_of_holds _ _ _ hp]⟩
    | false =>
      rw [laneAt, hslot, slotLane, Lane.gate_of_not_holds _ _ _ hp] at h
      exact absurd ⟨rfl, rfl⟩ h

/-- A slot is refused for the M bit of its store or the C bit of its FLUSH (30_encoding.md R104; log 20). -/
theorem laneAt_refusal_cases {r : Refusal} (h : (laneAt pk s k).refusal = some r) :
    (r = .storeWithMBit ∧ HasStoreWithMBit pk s k) ∨ (r = .flushWithCBit ∧ HasFlushWithCBit pk s k) := by
  obtain ⟨i, hslot, hp, hlane⟩ := laneAt_executing fun hplain => by cases hplain.1.symm.trans h
  have hissue : (issue i k s).refusal = some r := by
    rw [hlane] at h
    split at h <;> exact h
  obtain ⟨hr, x, hx, p, off, rt, rs, rfl⟩ | ⟨hr, p, ty, rs, rfl⟩ := issue_refusal_cases hissue
  · refine .inl ⟨hr, p, off, rt, rs, ?_, x, hx, hslot⟩
    simp only [List.mem_cons, List.not_mem_nil, or_false] at hx
    rcases hx with rfl | rfl | rfl | rfl <;> exact hp
  · exact .inr ⟨hr, p, ty, rs, hp, hslot⟩

/-- A slot with an access holds a memory instruction that executes. -/
theorem hasAccess_of_laneAt {a : Access} (h : (laneAt pk s k).access = some a) : HasAccess pk s k a := by
  obtain ⟨i, hslot, hp, hlane⟩ := laneAt_executing fun hplain => by cases hplain.2.symm.trans h
  refine ⟨i, hslot, ?_, hp, h⟩
  rw [hlane] at h
  split at h
  · exact type_of_issue_access h
  · cases h

end Slots

/-! Packets and steps. -/

theorem exists_refusal_of_firstRefusal {pk : Packet} {s : State} {r : Refusal}
    (h : firstRefusal (laneAt pk s 0) (laneAt pk s 1) (laneAt pk s 2) (laneAt pk s 3) = some r) :
    ∃ k, (laneAt pk s k).refusal = some r := by
  simp only [firstRefusal, Option.or_eq_some_iff] at h
  obtain h | ⟨-, h | ⟨-, h | ⟨-, h⟩⟩⟩ := h
  exacts [⟨0, h⟩, ⟨1, h⟩, ⟨2, h⟩, ⟨3, h⟩]

/-- Accesses that conflict are two, and conflict in the words of 20_memory.md R71. -/
theorem accessConflict_cases {x y : Option Access} (h : accessConflict x y = true) :
    ∃ a b, x = some a ∧ y = some b ∧ SpecConflict a b := by
  cases x with
  | none => cases h
  | some a =>
    cases y with
    | none => cases h
    | some b => exact ⟨a, b, rfl, rfl, (conflicts_iff a b).1 h⟩

/-- Why a packet is refused (30_encoding.md R104, 20_memory.md R71). -/
theorem runPacket_refused {pk : Packet} {s : State} {r : Refusal} (h : runPacket pk s = .refused r) :
    (r = .storeWithMBit ∧ ∃ k, HasStoreWithMBit pk s k) ∨ (r = .flushWithCBit ∧ ∃ k, HasFlushWithCBit pk s k) ∨
      (r = .memorySlotsConflict ∧ s.params.memLaneOrder = none ∧
        ∃ a b, HasAccess pk s 0 a ∧ HasAccess pk s 1 b ∧ SpecConflict a b) := by
  obtain hfirst | ⟨hr, horder, hconflict⟩ := finishPacket_refused h
  · obtain ⟨k, hk⟩ := exists_refusal_of_firstRefusal hfirst
    obtain ⟨hr, hstore⟩ | ⟨hr, hflush⟩ := laneAt_refusal_cases hk
    · exact .inl ⟨hr, k, hstore⟩
    · exact .inr (.inl ⟨hr, k, hflush⟩)
  · obtain ⟨a, b, ha, hb, hspec⟩ := accessConflict_cases hconflict
    exact .inr (.inr ⟨hr, horder, a, b, hasAccess_of_laneAt ha, hasAccess_of_laneAt hb, hspec⟩)

/-- The fetch's walk changes no predicate, so the fetched packet's predicates are those of the state before. -/
theorem holds_afterFetch (s : State) (p : Pred) : (afterFetch s).holds p = s.holds p :=
  holds_congr (fun _ => rfl) p

theorem step_of_refused {s : State} {r : Refusal} (h : coreStep s = .refused r) : step s = .refused r := by
  simp [step, closeStep, h]

/-- Settles O53: an interrupt and a failed fetch go on, there is no fault to raise, and a packet is refused for one of
its slots or for its two memory slots. -/
theorem stepStopsOnlyByRefusal : Obligations.StepStopsOnlyByRefusal := by
  intro s
  obtain ⟨-, hcore⟩ | ⟨f, -, -, hcore⟩ | ⟨pa, -, hpa, hcore⟩ := coreStep_cases s
  · exact .inl ⟨_, step_of_coreStep hcore⟩
  · exact .inl ⟨_, step_of_coreStep hcore⟩
  · cases hrun : runPacket (fetchedPacket s pa) (afterFetch s) with
    | next t => exact .inl ⟨_, step_of_coreStep (hcore.trans hrun)⟩
    | fault f => cases f
    | refused r =>
      have hwhy := runPacket_refused hrun
      simp only [HasStoreWithMBit, HasFlushWithCBit, holds_afterFetch, afterFetch_params] at hwhy
      exact .inr ⟨pa, r, hpa, step_of_refused (hcore.trans hrun), hwhy⟩

end Sys2Proof.Machine
end

section
/-! PROOFS. The ALU instructions (41_alu.md): each writes its result to Rd and nothing else, and the example words of the
instruction rules decode. -/

namespace Sys2Proof.Machine

/-! Results (41_alu.md R130, R134, R135, R139, R140). -/

/-- A sum modulo 2^32 (41_alu.md R130). -/
theorem aluAdd_eq_ofNat (a b : Word) : aluAdd a b = BitVec.ofNat 32 (a.toNat + b.toNat) := rfl

/-- A difference modulo 2^32: the integer difference, wrapped (41_alu.md R134). -/
theorem aluSub_eq_ofInt (a b : Word) : aluSub a b = BitVec.ofInt 32 ((a.toNat : Int) - b.toNat) := by
  simp only [aluSub, BitVec.sub_eq_add_neg, Int.sub_eq_add_neg, BitVec.ofInt_add, BitVec.ofInt_neg, BitVec.ofInt_natCast,
    BitVec.ofNat_toNat, BitVec.setWidth_eq]

/-- RSB is SUB with its operands exchanged (41_alu.md R135). -/
theorem aluRsb_eq_ofInt (a b : Word) : aluRsb a b = BitVec.ofInt 32 ((b.toNat : Int) - a.toNat) := aluSub_eq_ofInt b a

/-- The low byte as a signed number (41_alu.md R139). -/
theorem aluSxb_eq_ofInt (b : Word) : aluSxb b = BitVec.ofInt 32 (b.extractLsb' 0 8).toInt := rfl

/-- The low half-word as a signed number (41_alu.md R140). -/
theorem aluSxh_eq_ofInt (b : Word) : aluSxh b = BitVec.ofInt 32 (b.extractLsb' 0 16).toInt := rfl

/-! Instructions that write one register. -/

/-- An executing instruction whose lane is `x[rd] <- w` has that one effect; `w` may be said in other words. -/
theorem exec_wroteReg {i : Instr} {s : State} {rd : Reg} {v w : Word} (hp : s.holds i.pred = true)
    (hlane : issue i 0 s = Lane.setReg rd w) (hw : w = v) : ∃ t, exec i s = .next t ∧ s.WroteReg t rd v := by
  rw [exec_eq_execAlone, hlane, hw]
  exact execAlone_wroteReg i.pred rd v s hp

/-- Settles O9: in each format the lane writes what the operation computes, which is the sum or difference of the rule. -/
theorem addSubRsbWrite : Obligations.AddSubRsbWrite := by
  intro p s hp
  refine ⟨fun x hx c rot rd rs => ?_, fun x hx amt shf rt rd rs => ?_, fun x hx rd rs imm => ?_⟩
  all_goals
    simp only [List.mem_cons, List.not_mem_nil, or_false] at hx
    rcases hx with rfl | rfl | rfl
    exacts [exec_wroteReg hp rfl (aluAdd_eq_ofNat ..), exec_wroteReg hp rfl (aluSub_eq_ofInt ..),
      exec_wroteReg hp rfl (aluRsb_eq_ofInt ..)]

/-- Settles O10: the model computes AND, NOR, OR and XOR by the very operations of the rules, in each format. -/
theorem bitwiseAluWrite : Obligations.BitwiseAluWrite := by
  intro p s hp
  refine ⟨fun x hx c rot rd rs => ?_, fun x hx amt shf rt rd rs => ?_, fun x hx rd rs imm => ?_⟩
  all_goals
    simp only [List.mem_cons, List.not_mem_nil, or_false] at hx
    rcases hx with rfl | rfl | rfl | rfl <;> exact exec_wroteReg hp rfl rfl

/-- Settles O11: in each of the four formats MOV and MVN write Op2 and its complement as they are, SXB and SXH a sign
extension, which is the signed value of the low part. -/
theorem oneOperandAluWrite : Obligations.OneOperandAluWrite := by
  intro p s hp
  refine ⟨fun x hx lo rot rd hi => ?_, fun x hx amt shf rt rd => ?_, fun x hx shf rt rd rs => ?_,
    fun x hx rd imm => ?_⟩
  all_goals
    simp only [List.mem_cons, List.not_mem_nil, or_false] at hx
    rcases hx with rfl | rfl | rfl | rfl
    exacts [exec_wroteReg hp rfl rfl, exec_wroteReg hp rfl rfl, exec_wroteReg hp rfl (aluSxb_eq_ofInt ..),
      exec_wroteReg hp rfl (aluSxh_eq_ofInt ..)]

/-! Example words (41_alu.md R130, R133, R137, 42_compare.md R153, 43_branch.md R160, 44_load_store.md R173, R176, R177,
45_muldiv.md R191, 46_system.md R204, R205). -/

/-- Settles O2: eleven closed facts about the decoder, each by evaluating it. -/
theorem exampleWordsDecode : Obligations.ExampleWordsDecode := by
  unfold Obligations.ExampleWordsDecode
  decide

end Sys2Proof.Machine
end

section
/-! PROOFS. The compares (42_compare.md): each writes the result of its test to Pd, unless Pd is P3, and nothing else. -/

namespace Sys2Proof.Machine

/-! The conditions as tests on numbers and on single bits (42_compare.md R152, R155, R156). -/

/-- Two words share a set bit exactly when their conjunction is not 0. -/
theorem and_ne_zero_iff_exists_bit (a b : Word) :
    a &&& b ≠ 0#32 ↔ ∃ k : Fin 32, a.getLsbD k = true ∧ b.getLsbD k = true := by
  have hzero : a &&& b = 0#32 ↔ ∀ k : Fin 32, (a &&& b).getLsbD k = false :=
    ⟨fun h k => by rw [h, BitVec.getLsbD_zero],
      fun h => BitVec.eq_of_getLsbD_eq fun j hj => by rw [h ⟨j, hj⟩, BitVec.getLsbD_zero]⟩
  simp only [ne_eq, hzero, not_forall, Bool.not_eq_false, BitVec.getLsbD_and, Bool.and_eq_true]

/-- All 32 bits are equal exactly when the unsigned values are (42_compare.md R152). -/
theorem condEq_eq_toNat (a b : Word) : condEq a b = decide (a.toNat = b.toNat) :=
  decide_eq_decide.mpr BitVec.toNat_inj.symm

/-- CMPBS tests for a bit set in both words (42_compare.md R155). -/
theorem condBs_eq_exists_bit (a b : Word) :
    condBs a b = decide (∃ k : Fin 32, a.getLsbD k = true ∧ b.getLsbD k = true) :=
  decide_eq_decide.mpr (and_ne_zero_iff_exists_bit a b)

/-- In both readings CMPBC is the test on the bits that `b` selects: `any_clear` looks for a bit set in the complement of
`a`, `all_clear` denies CMPBS (42_compare.md R156). -/
theorem condBc_eq_specBc (reading : CmpbcReading) (a b : Word) : condBc reading a b = specBc reading a b := by
  cases reading with
  | anyClear =>
    refine decide_eq_decide.mpr ((and_ne_zero_iff_exists_bit (~~~a) b).trans (exists_congr fun k => ?_))
    simp only [BitVec.getLsbD_not, k.isLt, decide_true, Bool.true_and, Bool.not_eq_true']
  | allClear =>
    refine decide_eq_decide.mpr (not_iff_not.mp ((and_ne_zero_iff_exists_bit a b).trans ?_))
    simp only [not_forall, Bool.not_eq_false, exists_prop, and_comm]

/-! Instructions that write one predicate. -/

/-- An executing instruction whose lane is `p[pd] <- c` has that one effect; `c` may be said in other words. -/
theorem exec_wrotePred {i : Instr} {s : State} {pd : PredReg} {b c : Bool} (hp : s.holds i.pred = true)
    (hlane : issue i 0 s = Lane.setPred pd c) (hc : c = b) : ∃ t, exec i s = .next t ∧ s.WrotePred t pd b := by
  rw [exec_eq_execAlone, hlane, hc]
  exact execAlone_wrotePred i.pred pd b s hp

/-- Settles O12: in each format the lane writes the model's condition, which is the rule's: the four orders by definition,
CMPEQ and CMPBS by the lemmas above. -/
theorem comparesWrite : Obligations.ComparesWrite := by
  intro p s hp
  refine ⟨fun x hx c rot pd rs => ?_, fun x hx amt shf rt pd rs => ?_, fun x hx pd rs imm => ?_⟩
  all_goals
    simp only [List.mem_cons, List.not_mem_nil, or_false] at hx
    rcases hx with rfl | rfl | rfl | rfl | rfl | rfl
    exacts [exec_wrotePred hp rfl rfl, exec_wrotePred hp rfl rfl, exec_wrotePred hp rfl (condEq_eq_toNat ..),
      exec_wrotePred hp rfl rfl, exec_wrotePred hp rfl rfl, exec_wrotePred hp rfl (condBs_eq_exists_bit ..)]

/-- Settles O13: the three formats write the model's CMPBC condition, which is the rule's in either reading. -/
theorem cmpbcWrites : Obligations.CmpbcWrites := fun _ _ hp =>
  ⟨fun _ _ _ _ => exec_wrotePred hp rfl (condBc_eq_specBc ..),
    fun _ _ _ _ _ => exec_wrotePred hp rfl (condBc_eq_specBc ..),
    fun _ _ _ => exec_wrotePred hp rfl (condBc_eq_specBc ..)⟩

end Sys2Proof.Machine
end

section
/-! PROOFS. The branches (43_branch.md): each of the four forms moves pc to its target, BL also writes R31, and nothing
else changes. -/

namespace Sys2Proof.Machine

/-! Targets (30_encoding.md R107, 43_branch.md R160). -/

/-- A packet address is the address rounded down to 16 bytes: its high 28 bits are kept and its low four are 0. -/
theorem packetAddr_eq_roundDown (a : Word) : packetAddr a = BitVec.ofNat 32 (a.toNat - a.toNat % 16) := by
  have hhigh := congrArg BitVec.toNat (packetAddr_high a)
  have hlow := (lowFour_eq_zero_iff _).1 (packetAddr_aligned a)
  simp only [BitVec.extractLsb'_toNat, Nat.shiftRight_eq_div_pow] at hhigh
  apply BitVec.eq_of_toNat_eq
  rw [BitVec.toNat_ofNat]
  omega

/-- The target of an immediate branch in bytes (43_branch.md R160). -/
theorem branchImmTarget_eq (pc : Word) (off : BitVec 25) :
    branchImmTarget pc off = pc + BitVec.ofInt 32 (16 * off.toInt) :=
  congrArg (pc + ·) (signExtend_packets off)

/-- The target of a register branch in bytes (43_branch.md R160). -/
theorem branchRegTarget_eq {base sum : Word} {off : BitVec 20} (hsum : sum = base + BitVec.ofInt 32 (16 * off.toInt)) :
    branchRegTarget base off = BitVec.ofNat 32 (sum.toNat - sum.toNat % 16) := by
  rw [branchRegTarget, branchRegOffset, signExtend_packets, ← hsum, packetAddr_eq_roundDown]

/-! A branch alone in its packet. -/

/-- A jump may change pc and the general registers. -/
theorem jumped_with_regs (s : State) (regs : Vector Word 32) (target : Word) :
    s.Jumped { s with regs := regs, pc := target } target where
  pc := rfl
  preds := fun _ => rfl
  ovf := rfl
  link := rfl
  control := ⟨rfl, rfl, fun _ => rfl⟩
  memory := keepsMemory_refl s
  tlbs := ⟨rfl, rfl⟩
  environment := ⟨rfl, rfl, rfl⟩

/-- An executing instruction whose lane is a branch without link jumps and writes no register; the target may be said in
other words (43_branch.md R160). -/
theorem exec_branch {i : Instr} {s : State} {a target : Word} (hp : s.holds i.pred = true)
    (hlane : issue i 0 s = Lane.branch a) (ha : a = target) :
    ∃ t, exec i s = .next t ∧ s.Jumped t target ∧ s.keepsRegs t := by
  rw [exec_eq_execAlone, hlane, ha]
  exact ⟨_, execAlone_commit i.pred _ s hp rfl rfl, jumped_with_regs s s.regs target, fun _ => rfl⟩

/-- An executing instruction whose lane is a branch with link jumps, and R31 gets the pc of its own packet
(43_branch.md R161). -/
theorem exec_branchLink {i : Instr} {s : State} {a target : Word} (hp : s.holds i.pred = true)
    (hlane : issue i 0 s = Lane.branchLink s a) (ha : a = target) :
    ∃ t, exec i s = .next t ∧ s.Jumped t target ∧ t.readReg 31 = s.pc ∧ s.keepsRegsBut t 31 := by
  rw [exec_eq_execAlone, hlane, ha]
  exact ⟨_, execAlone_commit i.pred _ s hp rfl rfl, jumped_with_regs s _ target, readReg_writeReg_self s 31 s.pc,
    fun _ hr => readReg_writeReg_ne s s.pc hr⟩

/-- Settles O25: B's lanes are branches and BL's are branches with link, each to the target that R160 states. -/
theorem branchesJump : Obligations.BranchesJump := fun _ _ hp =>
  ⟨fun _ => exec_branch hp rfl (branchImmTarget_eq ..), fun _ => exec_branchLink hp rfl (branchImmTarget_eq ..),
    fun _ _ _ hsum => ⟨exec_branch hp rfl (branchRegTarget_eq hsum), exec_branchLink hp rfl (branchRegTarget_eq hsum)⟩⟩

end Sys2Proof.Machine
end

section
/-! PROOFS. Loads from RAM, stores to RAM, and SC with its link bit set and clear (44_load_store.md R170 to R177,
20_memory.md R44, R53, R57, R68). -/

namespace Sys2Proof.Machine

/-! Little-endian values as sums of bytes (20_memory.md R44). -/

theorem toNat_append_byte {n : Nat} (hi : BitVec n) (lo : Byte) : (hi ++ lo).toNat = lo.toNat + 2 ^ 8 * hi.toNat := by
  rw [BitVec.toNat_append, ← Nat.shiftLeft_add_eq_or_of_lt lo.isLt, Nat.shiftLeft_eq, Nat.add_comm, Nat.mul_comm]

theorem readSized_byte_eq_ofNat (m : Memory) (a : Nat) :
    m.readSized a .byte = BitVec.ofNat 32 (m.read a).toNat :=
  (BitVec.ofNat_toNat ..).symm

theorem readSized_half_eq_ofNat (m : Memory) (a : Nat) :
    m.readSized a .half = BitVec.ofNat 32 ((m.read a).toNat + 2 ^ 8 * (m.read (a + 1)).toNat) := by
  rw [← toNat_append_byte]
  exact (BitVec.ofNat_toNat ..).symm

theorem readSized_word_eq_ofNat (m : Memory) (a : Nat) :
    m.readSized a .word = BitVec.ofNat 32 ((m.read a).toNat + 2 ^ 8 * (m.read (a + 1)).toNat +
      2 ^ 16 * (m.read (a + 2)).toNat + 2 ^ 24 * (m.read (a + 3)).toNat) := by
  have hsum : (m.readWord a).toNat = (m.read a).toNat + 2 ^ 8 * (m.read (a + 1)).toNat +
      2 ^ 16 * (m.read (a + 2)).toNat + 2 ^ 24 * (m.read (a + 3)).toNat := by
    simp only [Memory.readWord, toNat_append_byte]
    omega
  rw [← hsum, BitVec.ofNat_toNat, BitVec.setWidth_eq, Memory.readSized]

/-! Loads. -/

theorem loadValue_of_isRam {s : State} {pa : Word} (h : isRam pa = true) (k : Fin 4) (sz : Size) :
    loadValue s k pa sz = s.mem.readSized pa.toNat sz := if_pos h

/-- A load from RAM records no event and changes no byte (20_memory.md R49, R57). -/
theorem afterLoad_keepsMemory {s : State} {pa : Word} (h : isRam pa = true) (k : Fin 4) (sz : Size) (rd : Reg)
    (v : Word) (sets : Bool) (fill : Option TlbEntry) :
    s.keepsMemory (afterLoad s rd v sets (loadLog s k pa sz) fill) := by
  rw [loadLog, if_pos h]
  exact ⟨fun _ => rfl, rfl, rfl, List.append_nil _⟩

/-- Settles O14: each of the four is a load of its size, and what it reads is the sum of its bytes. -/
theorem loadsReadRam : Obligations.LoadsReadRam := by
  intro p off rd rs s pa k hk hp hram y hy hpa
  obtain ⟨hform, hvalue⟩ : LoadForm y.1 y.2.1 y.2.2.1 ∧
      s.mem.readSized pa.toNat y.2.1 = BitVec.ofNat 32 y.2.2.2 := by
    simp only [List.mem_cons, List.not_mem_nil, or_false] at hy
    rcases hy with rfl | rfl | rfl | rfl
    exacts [⟨loadForm_lb, readSized_byte_eq_ofNat ..⟩, ⟨loadForm_lh, readSized_half_eq_ofNat ..⟩,
      ⟨loadForm_lw, readSized_word_eq_ofNat ..⟩, ⟨loadForm_ll, readSized_word_eq_ofNat ..⟩]
  obtain ⟨hexec, hpacket⟩ := hform.runs (rd := rd) hk hp hpa
  rw [loadValue_of_isRam hram, hvalue] at hexec hpacket
  exact ⟨_, hexec, hpacket, afterLoad_loadedReg .., afterLoad_keepsMemory hram ..⟩

/-! Stores. -/

section StoreToRam
variable {s : State} {pa : Word} {sz : Size} {v : Word} {fill : Option TlbEntry}

theorem afterStore_storedBytes (h : isRam pa = true) :
    s.storedBytes (afterStore s pa sz v fill) pa.toNat sz.bytes v := by
  rw [afterStore_of_isRam h]
  exact storedBytes_of_mem rfl

theorem afterStore_keptOldWord (h : isRam pa = true) :
    s.keptOldWord (afterStore s pa sz v fill) (4 * (pa.toNat / 4)) := by
  rw [afterStore_of_isRam h]
  exact ⟨fun _ => Versions.mem_add, fun _ => Versions.mem_add⟩

theorem afterStore_periphLog (h : isRam pa = true) : (afterStore s pa sz v fill).periphLog = s.periphLog := by
  rw [afterStore_of_isRam h]
  rfl

end StoreToRam

/-- Settles O15: each of the three is a store of its size. -/
theorem storesWriteRam : Obligations.StoresWriteRam := by
  intro y hy p off rt rs s pa k hk hp hram hpa
  obtain ⟨hform, hbytes⟩ : StoreForm y.1 y.2.1 ∧ y.2.1.bytes = y.2.2 := by
    simp only [List.mem_cons, List.not_mem_nil, or_false] at hy
    rcases hy with rfl | rfl | rfl
    exacts [⟨storeForm_sb, rfl⟩, ⟨storeForm_sh, rfl⟩, ⟨storeForm_sw, rfl⟩]
  obtain ⟨hexec, hpacket⟩ := hform.runs (rt := rt) hk hp hpa
  rw [← hbytes]
  exact ⟨_, hexec, hpacket, afterStore_storedBytes hram, afterStore_keptOldWord hram, afterStore_periphLog hram,
    afterStore_keepsPreds, afterStore_storeFrame⟩

/-! SC (44_load_store.md R177). -/

theorem pastPacket_storeFrame (s : State) (fill : Option TlbEntry) :
    s.StoreFrame (s.fillOption .data fill).pastPacket s.link fill :=
  ⟨fun _ => rfl, rfl, rfl, rfl, rfl, ⟨rfl, ⟨rfl, rfl, fun _ => rfl⟩, rfl, rfl, rfl⟩⟩

/-- Writing P0 and the link bit leaves the other predicates alone. -/
theorem readPred_with_p0_link {s t : State} (h : s.keepsPreds t) (b link : Bool) (n : PredReg) (hn : n ≠ 0) :
    { t with p0 := b, link := link }.readPred n = s.readPred n :=
  match n with
  | 0 => absurd rfl hn
  | 1 => h 1
  | 2 => h 2
  | 3 => h 3

/-- An SC that does not store, alone in slot 0 or 1: P0 and the link bit, and nothing of memory. -/
theorem sc_runs_unlinked {p : Pred} {off : BitVec 11} {rt rs : Reg} {s : State} {k : Fin 4} {pa : Word}
    (hk : k.val ≤ 1) (hp : s.holds p = true) (hlink : s.link = false)
    (hpa : (dataTranslation s k .word (storeAddr (s.readReg rs) off) true).result = .ok pa) :
    RunsAlone (.sc p off false rt rs) k s
      { (s.fillOption .data (dataTranslation s k .word (storeAddr (s.readReg rs) off) true).fill).pastPacket with
        p0 := false, link := false } := by
  have hissue := (issue_sc p off rt rs k s).trans (Lane.storeConditional_of_ok hpa)
  rw [hlink, if_neg Bool.false_ne_true] at hissue
  have hruns := runsAlone_commit (i := .sc p off false rt rs) hk rfl hp (by rw [hissue]) (by rw [hissue])
    (by rw [hissue]; rfl)
  rwa [hissue, commit_of_no_clash (linkClash_of_no_return (by simp)), applyFills_fillsOf] at hruns

/-- Settles O16: with the link bit set SC is a store that also writes P0 and the link bit; with it clear it writes these
two and stores nothing. -/
theorem storeConditional : Obligations.StoreConditional := by
  refine fun p off rt rs s pa k hk hp => ⟨fun hlink hram hpa => ?linked, fun hlink hpa => ?unlinked⟩
  case linked =>
    obtain ⟨hexec, hpacket⟩ := sc_runs_linked (rt := rt) hk hp hlink hpa
    exact ⟨_, hexec, hpacket, afterStore_storedBytes (sz := .word) hram, afterStore_keptOldWord hram,
      afterStore_periphLog hram, rfl, readPred_with_p0_link afterStore_keepsPreds true false,
      afterStore_storeFrame.with_p0_link true false⟩
  case unlinked =>
    obtain ⟨hexec, hpacket⟩ := sc_runs_unlinked (rt := rt) hk hp hlink hpa
    exact ⟨_, hexec, hpacket, keepsMemory_refl s, rfl, readPred_with_p0_link (fun _ => rfl) false false,
      (pastPacket_storeFrame s _).with_p0_link false false⟩

end Sys2Proof.Machine
end

section
/-! PROOFS. MULT, DIV by a register that is not 0, MFHI and MTHI (45_muldiv.md R190 to R193): the exact results, and
that nothing but Rd, `ovf` and pc changes. -/

namespace Sys2Proof.Machine

/-! Products (45_muldiv.md R190). -/

/-- The product of two words, read unsigned, fits in 64 bits. -/
theorem toNat_product_unsigned (a b : Word) : (product false a b).toNat = a.toNat * b.toNat :=
  (BitVec.toNat_ofNat ..).trans (Nat.mod_eq_of_lt (lt_of_lt_of_eq (Nat.mul_lt_mul'' a.isLt b.isLt) (by decide)))

/-- The product of two words, read signed, fits in 64 bits: it is at most 2^62 in size. -/
theorem toInt_product_signed (a b : Word) : (product true a b).toInt = a.toInt * b.toInt := by
  have hbound : (a.toInt * b.toInt).natAbs ≤ 2 ^ 31 * 2 ^ 31 := by
    rw [Int.natAbs_mul]
    have ha := a.le_toInt
    have ha' := a.toInt_lt
    have hb := b.le_toInt
    have hb' := b.toInt_lt
    exact Nat.mul_le_mul (by omega) (by omega)
  exact BitVec.toInt_ofInt_eq_self (by decide) (by omega) (by omega)

/-! Words that are not 0, and numbers that fit in a word. -/

theorem toNat_pos_of_ne_zero {a : Word} (h : a ≠ 0#32) : 0 < a.toNat :=
  Nat.pos_of_ne_zero fun e => h (BitVec.toNat_inj.1 e)

theorem toInt_ne_zero_of_ne_zero {a : Word} (h : a ≠ 0#32) : a.toInt ≠ 0 := fun e => h (BitVec.toInt_inj.1 e)

theorem toInt_ofInt_word {n : Int} (hlo : -0x80000000 ≤ n) (hhi : n < 0x80000000) : (BitVec.ofInt 32 n).toInt = n :=
  BitVec.toInt_ofInt_eq_self (by decide) hlo hhi

theorem toNat_ofInt_word {n : Nat} (h : n < 2 ^ 32) : (BitVec.ofInt 32 n).toNat = n := by
  rw [BitVec.ofInt_natCast, BitVec.toNat_ofNat, Nat.mod_eq_of_lt h]

/-! Quotients and remainders (45_muldiv.md R191). -/

/-- The floor quotient of natural numbers. -/
theorem quotient_unsigned (sd : SignedDivision) (n d : Nat) : quotient sd false n d = (n / d : Nat) :=
  (Int.natCast_ediv ..).symm

/-- What the floor quotient leaves over. -/
theorem remainder_unsigned (sd : SignedDivision) (n d : Nat) : remainder sd false n d = (n % d : Nat) := by
  rw [Int.natCast_emod, Int.emod_def, Int.mul_comm]
  rfl

theorem quotientFits_unsigned {q : Nat} (h : q < 2 ^ 32) : quotientFits false q = true := by
  simp only [quotientFits, Bool.false_eq_true, if_false, Bool.and_eq_true, decide_eq_true_eq]
  omega

/-- A remainder is smaller than the divisor. -/
theorem natAbs_tmod_lt (n : Int) {d : Int} (hd : d ≠ 0) : (n.tmod d).natAbs < d.natAbs := by
  rw [Int.natAbs_tmod]
  exact Nat.mod_lt _ (Int.natAbs_pos.2 hd)

/-- A remainder of truncating division is 0 or has the dividend's sign. -/
theorem tmod_sign (n d : Int) : n.tmod d = 0 ∨ (0 < n.tmod d ↔ 0 < n) := by
  have hsign := Int.sign_tmod n d
  split at hsign
  · exact .inl (Int.sign_eq_zero_iff_zero.1 hsign)
  · exact .inr (by rw [← Int.sign_pos_iff, hsign, Int.sign_pos_iff])

/-- The conditions of the default SDIV and SREM (00_scope.md R5) determine quotient and remainder. -/
theorem tdiv_tmod_of_conditions {n d q r : Int} (hn : n = q * d + r) (hr : r.natAbs < d.natAbs)
    (hsign : r = 0 ∨ (0 < r ↔ 0 < n)) : n.tdiv d = q ∧ n.tmod d = r := by
  have hd : d ≠ 0 := fun h => by simp [h] at hr
  have hsum : r + d * q = n := by rw [hn, Int.mul_comm, Int.add_comm]
  rcases lt_or_ge 0 n with hpos | hneg
  · exact (Int.tdiv_tmod_unique hpos.le hd).2 ⟨hsum, by omega, by omega⟩
  · exact (Int.tdiv_tmod_unique' hneg hd).2 ⟨hsum, by omega, by omega⟩

/-- Of all divisions of a word by a word, truncating, only -2^31 by -1 has a quotient that does not fit. -/
theorem tdiv_fits {a b : Word} (hb : b ≠ 0#32) (h : ¬(a.toInt = -0x80000000 ∧ b.toInt = -1)) :
    -0x80000000 ≤ a.toInt.tdiv b.toInt ∧ a.toInt.tdiv b.toInt < 0x80000000 := by
  have hb0 := toInt_ne_zero_of_ne_zero hb
  have ha := a.le_toInt
  have ha' := a.toInt_lt
  by_cases h1 : b.toInt = -1
  · rw [h1, Int.tdiv_neg, Int.tdiv_one]
    omega
  by_cases h2 : b.toInt = 1
  · rw [h2, Int.tdiv_one]
    omega
  have hhalf : (a.toInt.tdiv b.toInt).natAbs ≤ 2 ^ 30 :=
    calc (a.toInt.tdiv b.toInt).natAbs = a.toInt.natAbs / b.toInt.natAbs := Int.natAbs_tdiv ..
      _ ≤ a.toInt.natAbs / 2 := Nat.div_le_div_left (by omega) (by decide)
      _ ≤ 2 ^ 30 := by omega
  omega

section Exec
variable {p : Pred} {rt rd rs : Reg} {s : State}

/-! Instructions that write one register and `ovf`. -/

/-- An executing instruction whose lane is `x[rd] <- v` and `ovf <- o` has these effects only. -/
theorem exec_onlyRegOvf {i : Instr} {v o : Word} (hp : s.holds i.pred = true)
    (hlane : issue i 0 s = Lane.setRegOvf rd v o) :
    ∃ t, exec i s = .next t ∧ s.OnlyRegOvf t rd ∧ t.readReg rd = v ∧ t.ovf = o := by
  rw [exec_eq_execAlone, hlane]
  exact execAlone_onlyRegOvf i.pred rd v o s hp

/-- MULT leaves the whole product in `ovf` and Rd (45_muldiv.md R190). -/
theorem exec_mult (sg : Bool) (hp : s.holds p = true) :
    ∃ t, exec (.mult p sg rt rd rs) s = .next t ∧ s.OnlyRegOvf t rd ∧
      t.ovf ++ t.readReg rd = product sg (s.readReg rs) (s.readReg rt) := by
  obtain ⟨t, hexec, honly, hrd, hovf⟩ := exec_onlyRegOvf (i := .mult p sg rt rd rs) hp rfl
  refine ⟨t, hexec, honly, ?_⟩
  rw [hrd, hovf]
  exact (BitVec.extractLsb'_append_extractLsb'_eq_extractLsb' rfl).trans BitVec.extractLsb'_eq_self

/-- DIV by a register that is not 0 writes what the division gives (45_muldiv.md R191). -/
theorem exec_div (sg wide : Bool) (hp : s.holds p = true) (hrt : s.readReg rt ≠ 0#32) :
    ∃ t, exec (.div p sg rt wide rd rs) s = .next t ∧ s.OnlyRegOvf t rd ∧
      t.readReg rd = divQuotient s.params.signedDivision sg (dividend sg wide s.ovf (s.readReg rs))
        (divisor sg (s.readReg rt)) s.tick ∧
      t.ovf = divRemainder s.params.signedDivision sg (dividend sg wide s.ovf (s.readReg rs))
        (divisor sg (s.readReg rt)) s.tick :=
  exec_onlyRegOvf (i := .div p sg rt wide rd rs) hp (if_neg hrt)

/-- Where the quotient fits, DIV draws nothing (45_muldiv.md R191). -/
theorem exec_div_of_fits {sg wide : Bool} {n d : Int} (hp : s.holds p = true) (hrt : s.readReg rt ≠ 0#32)
    (hn : dividend sg wide s.ovf (s.readReg rs) = n) (hd : divisor sg (s.readReg rt) = d)
    (hfits : quotientFits sg (quotient s.params.signedDivision sg n d) = true) :
    ∃ t, exec (.div p sg rt wide rd rs) s = .next t ∧ s.OnlyRegOvf t rd ∧
      t.readReg rd = BitVec.ofInt 32 (quotient s.params.signedDivision sg n d) ∧
      t.ovf = BitVec.ofInt 32 (remainder s.params.signedDivision sg n d) := by
  subst hn hd
  obtain ⟨t, hexec, honly, hrd, hovf⟩ := exec_div (rd := rd) (rs := rs) sg wide hp hrt
  exact ⟨t, hexec, honly, hrd.trans (if_pos hfits), hovf.trans (if_pos hfits)⟩

/-- Unsigned DIV of a dividend, narrow or wide, whose quotient is below 2^32 (45_muldiv.md R191). -/
theorem exec_div_unsigned {wide : Bool} {n : Nat} (hp : s.holds p = true) (hrt : s.readReg rt ≠ 0#32)
    (hn : dividend false wide s.ovf (s.readReg rs) = n) (hfits : n < 2 ^ 32 * (s.readReg rt).toNat) :
    ∃ t, exec (.div p false rt wide rd rs) s = .next t ∧ s.OnlyRegOvf t rd ∧
      n = (t.readReg rd).toNat * (s.readReg rt).toNat + t.ovf.toNat ∧ t.ovf.toNat < (s.readReg rt).toNat := by
  have hpos := toNat_pos_of_ne_zero hrt
  have hq : n / (s.readReg rt).toNat < 2 ^ 32 := (Nat.div_lt_iff_lt_mul hpos).2 hfits
  have hr : n % (s.readReg rt).toNat < (s.readReg rt).toNat := Nat.mod_lt n hpos
  obtain ⟨t, hexec, honly, hrd, hovf⟩ := exec_div_of_fits (rd := rd) (d := (s.readReg rt).toNat) hp hrt hn rfl
    (quotient_unsigned _ n _ ▸ quotientFits_unsigned hq)
  rw [quotient_unsigned] at hrd
  rw [remainder_unsigned] at hovf
  refine ⟨t, hexec, honly, ?_⟩
  rw [hrd, hovf, toNat_ofInt_word hq, toNat_ofInt_word (hr.trans (BitVec.isLt _)), Nat.div_add_mod']
  exact ⟨rfl, hr⟩

/-- Signed DIV, narrow or wide, with a quotient that fits, whatever SDIV and SREM are (45_muldiv.md R191, log 14). -/
theorem exec_div_signed {wide : Bool} {n : Int} (hp : s.holds p = true) (hrt : s.readReg rt ≠ 0#32)
    (hn : dividend true wide s.ovf (s.readReg rs) = n)
    (hlo : -0x80000000 ≤ sdiv s.params.signedDivision n (s.readReg rt).toInt)
    (hhi : sdiv s.params.signedDivision n (s.readReg rt).toInt < 0x80000000) :
    ∃ t, exec (.div p true rt wide rd rs) s = .next t ∧ s.OnlyRegOvf t rd ∧
      (t.readReg rd).toInt = sdiv s.params.signedDivision n (s.readReg rt).toInt ∧
      t.ovf = BitVec.ofInt 32 (srem s.params.signedDivision n (s.readReg rt).toInt) := by
  have hfits : quotientFits true (quotient s.params.signedDivision true n (s.readReg rt).toInt) = true :=
    Bool.and_eq_true_iff.2 ⟨decide_eq_true hlo, decide_eq_true hhi⟩
  obtain ⟨t, hexec, honly, hrd, hovf⟩ := exec_div_of_fits (rd := rd) hp hrt hn rfl hfits
  exact ⟨t, hexec, honly, hrd ▸ toInt_ofInt_word hlo hhi, hovf⟩

/-- Signed DIV under the default SDIV and SREM: the remainder, smaller than the divisor, always fits in `ovf`
(45_muldiv.md R191, log 14). -/
theorem exec_div_truncating {wide : Bool} {n : Int} (hp : s.holds p = true) (hrt : s.readReg rt ≠ 0#32)
    (htrunc : s.params.signedDivision = .truncating) (hn : dividend true wide s.ovf (s.readReg rs) = n)
    (hlo : -0x80000000 ≤ n.tdiv (s.readReg rt).toInt) (hhi : n.tdiv (s.readReg rt).toInt < 0x80000000) :
    ∃ t, exec (.div p true rt wide rd rs) s = .next t ∧ s.OnlyRegOvf t rd ∧
      (t.readReg rd).toInt = n.tdiv (s.readReg rt).toInt ∧ t.ovf.toInt = n.tmod (s.readReg rt).toInt := by
  have hrem := natAbs_tmod_lt n (toInt_ne_zero_of_ne_zero hrt)
  have hdlo := (s.readReg rt).le_toInt
  have hdhi := (s.readReg rt).toInt_lt
  have hr : (BitVec.ofInt 32 (n.tmod (s.readReg rt).toInt)).toInt = n.tmod (s.readReg rt).toInt :=
    toInt_ofInt_word (by omega) (by omega)
  obtain ⟨t, hexec, honly, hrd, hovf⟩ := exec_div_signed (rd := rd) hp hrt hn (htrunc ▸ hlo) (htrunc ▸ hhi)
  rw [htrunc] at hrd hovf
  exact ⟨t, hexec, honly, hrd, hovf ▸ hr⟩

end Exec

/-- Settles O26: `ovf` and Rd joined are the product of the model, which is exact in both readings. -/
theorem multWritesProduct : Obligations.MultWritesProduct := by
  intro p rt rd rs s hp
  constructor
  · obtain ⟨t, hexec, honly, hprod⟩ := exec_mult (rt := rt) (rd := rd) (rs := rs) false hp
    exact ⟨t, hexec, honly, hprod ▸ toNat_product_unsigned ..⟩
  · obtain ⟨t, hexec, honly, hprod⟩ := exec_mult (rt := rt) (rd := rd) (rs := rs) true hp
    exact ⟨t, hexec, honly, hprod ▸ toInt_product_signed ..⟩

/-- Settles O27: a word is below 2^32 times any divisor, and so is {OVF:Rs} where `ovf` is below the divisor. -/
theorem divUnsigned : Obligations.DivUnsigned := by
  intro p rt rd rs s hp hrt
  have hpos := toNat_pos_of_ne_zero hrt
  have hrs := (s.readReg rs).isLt
  refine ⟨exec_div_unsigned hp hrt rfl (by omega), fun hovf => exec_div_unsigned hp hrt ?_ (by omega)⟩
  show ((s.ovf ++ s.readReg rs : BitVec 64).toNat : Int) = _
  rw [BitVec.toNat_append, ← Nat.shiftLeft_add_eq_or_of_lt hrs, Nat.shiftLeft_eq]

/-- Settles O28: SDIV and SREM are written as they are; by default the narrow quotient fits but for the excluded pair,
and the conditions on the wide quotient and remainder determine them. -/
theorem divSigned : Obligations.DivSigned := by
  intro p rt rd rs s hp hrt
  refine ⟨fun wide n hn => exec_div_signed hp hrt (by cases wide <;> exact hn.symm),
    fun htrunc => ⟨fun hpair => ?narrow, fun q r hlo hhi hn hr hsign => ?wide⟩⟩
  case narrow =>
    obtain ⟨hlo, hhi⟩ := tdiv_fits hrt hpair
    obtain ⟨t, hexec, honly, hrd, hovf⟩ := exec_div_truncating (wide := false) (rd := rd) hp hrt htrunc rfl hlo hhi
    refine ⟨t, hexec, honly, ?_⟩
    rw [hrd, hovf, Int.tdiv_mul_add_tmod]
    exact ⟨rfl, natAbs_tmod_lt _ (toInt_ne_zero_of_ne_zero hrt), tmod_sign ..⟩
  case wide =>
    obtain ⟨rfl, rfl⟩ := tdiv_tmod_of_conditions hn hr hsign
    exact exec_div_truncating hp hrt htrunc rfl hlo hhi

/-- Settles O29: DIV's lane writes Rd and `ovf`, with draws or without. -/
theorem divAlwaysCompletes : Obligations.DivAlwaysCompletes := by
  intro p sg wide rt rd rs s hp hrt
  obtain ⟨t, hexec, honly, -⟩ := exec_div (rd := rd) (rs := rs) sg wide hp hrt
  exact ⟨t, hexec, honly⟩

/-- Settles O31: MFHI's lane writes one register and MTHI's commits one write of `ovf`. -/
theorem mfhiMthi : Obligations.MfhiMthi := by
  intro p s hp
  refine ⟨fun rd => exec_wroteReg hp rfl rfl, fun rs => ?_⟩
  rw [exec_eq_execAlone]
  exact ⟨_, execAlone_commit p _ s hp rfl rfl, rfl, fun _ => rfl, fun _ => rfl, rfl, keepsMemory_refl s, ⟨rfl, rfl⟩,
    rfl, ⟨rfl, rfl, fun _ => rfl⟩, rfl, rfl, rfl⟩

end Sys2Proof.Machine
end

section
/-! PROOFS. The system instructions (46_system.md R200 to R206): the traps they take, and in kernel mode the one write
that each commits. -/

namespace Sys2Proof.Machine

/-! A lone instruction that raises, and one that commits one write. -/

/-- An executing instruction whose lane raises takes the trap in lane 0 with its code and address, and of the TLBs it
changes what its walks leave there (60_exceptions.md R234 to R237). -/
theorem exec_trapped {i : Instr} {s : State} {e : Exn} {fs : List Fill} (hp : s.holds i.pred = true)
    (hlane : issue i 0 s = { exn := some e, fills := fs }) :
    ∃ t, exec i s = .next t ∧ s.Trapped t e.code 0#32 0#32 0#32 (e.ea.getD s.ea0) s.ea1 ∧
      (applyFills fs s).keepsTlbs t := by
  rw [exec_eq_execAlone, hlane]
  obtain ⟨t, hnext, htrapped, hdtlb, hitlb, -⟩ :=
    execAlone_trapped i.pred { exn := some e, fills := fs } s e hp rfl rfl
  exact ⟨t, hnext, htrapped, hdtlb, hitlb⟩

/-- The trap of an address whose translation failed (60_exceptions.md R225, R226, R237). -/
theorem exec_dataExn_trapped {i : Instr} {s : State} {f : MemFault} {ea : Word} {fs : List Fill}
    (hp : s.holds i.pred = true) (hlane : issue i 0 s = { exn := some (dataExn ea f), fills := fs }) :
    ∃ t, exec i s = .next t ∧ s.Trapped t (specCode f) 0#32 0#32 0#32 ea s.ea1 := by
  obtain ⟨t, hexec, htrapped, -⟩ := exec_trapped hp hlane
  cases f <;> exact ⟨t, hexec, htrapped⟩

/-- The link bit is contended by two writes only (log 21). -/
theorem linkClash_singleton (w : Write) : linkClash [w] = false := by
  by_cases h : w = .trapReturn
  · subst h; rfl
  · exact linkClash_of_no_return (by simpa using Ne.symm h)

/-- An executing instruction whose lane is one pending write: after its walks' entries and the advance of pc, that write
takes effect (40_packet_execution.md R114, R116). -/
theorem exec_write {i : Instr} {s : State} {w : Write} {fs : List Fill} (hp : s.holds i.pred = true)
    (hlane : issue i 0 s = { writes := [w], fills := fs }) :
    exec i s = .next (w.apply (applyFills fs s).pastPacket) := by
  rw [exec_eq_execAlone, hlane, execAlone_commit i.pred _ s hp rfl rfl,
    commit_of_no_clash (linkClash_singleton w)]
  rfl

/-! SYSCALL, BREAK and FENCE (46_system.md R200 to R202). -/

/-- Settles O32: the lanes raise, with no address and no walk. -/
theorem syscallAndBreakTrap : Obligations.SyscallAndBreakTrap := fun p _ hp =>
  ⟨exec_trapped (i := .syscall p) (fs := []) hp rfl, exec_trapped (i := .brk p) (fs := []) hp rfl⟩

/-- Settles O33: FENCE's lane commits no write, so that pc moves on and nothing else does. -/
theorem fenceDoesNothing : Obligations.FenceDoesNothing := fun p s hp => execAlone_commit p laneFence s hp rfl rfl

/-! ERET (46_system.md R203, 60_exceptions.md R240). -/

/-- In kernel mode a privileged instruction does what it does (60_exceptions.md R223). -/
theorem Lane.privileged_of_kernel {l : Lane} {s : State} (h : s.mode = .kernel) : l.privileged s = l := by
  simp [Lane.privileged, h]

/-- Of the coprocessor registers a return from a trap changes PFLAGS only (60_exceptions.md R240). -/
theorem trapReturn_readCpr (s : State) {c : Cpr} (hc : c ≠ .pflags) : (trapReturn s).readCpr c = s.readCpr c := by
  cases c with
  | pflags => exact absurd rfl hc
  | _ => rfl

/-- Settles O34: in kernel mode ERET's one write is the return from the trap, whose pc, mode and IE are EPC's fields. -/
theorem eretReturns : Obligations.EretReturns := by
  intro p s hp hmode
  have hexec : exec (.eret p) s = .next (trapReturn s.pastPacket) :=
    exec_write (w := .trapReturn) (fs := []) hp (Lane.privileged_of_kernel hmode)
  exact ⟨_, hexec, packetAddr_high s.epc, packetAddr_aligned s.epc, rfl, ie_trapReturn s.pastPacket,
    setIe_otherBits s s.epcIf, rfl, fun _ hc => trapReturn_readCpr s.pastPacket hc, fun _ => rfl, fun _ => rfl, rfl,
    keepsMemory_refl s, ⟨rfl, rfl⟩, rfl, rfl, rfl⟩

/-! FLUSH.DTLB and FLUSH.ITLB (46_system.md R204). -/

theorem mem_flushTlbPage_data {s : State} {vpage : BitVec 20} {e : TlbEntry} :
    e ∈ (s.flushTlbPage .data vpage).dtlb ↔ e ∈ s.dtlb ∧ e.vpage ≠ vpage := by
  simp [State.flushTlbPage]

theorem mem_flushTlbPage_inst {s : State} {vpage : BitVec 20} {e : TlbEntry} :
    e ∈ (s.flushTlbPage .inst vpage).itlb ↔ e ∈ s.itlb ∧ e.vpage ≠ vpage := by
  simp [State.flushTlbPage]

/-- What a flush of a page from either TLB leaves unchanged besides the TLBs. -/
theorem flushTlbPage_frame (s : State) (which : TlbId) (vpage : BitVec 20) :
    s.keepsRegs (s.pastPacket.flushTlbPage which vpage) ∧ s.keepsPreds (s.pastPacket.flushTlbPage which vpage) ∧
      (s.pastPacket.flushTlbPage which vpage).ovf = s.ovf ∧ (s.pastPacket.flushTlbPage which vpage).link = s.link ∧
      s.keepsMemory (s.pastPacket.flushTlbPage which vpage) ∧ s.Advanced (s.pastPacket.flushTlbPage which vpage) := by
  cases which <;>
    exact ⟨fun _ => rfl, fun _ => rfl, rfl, rfl, keepsMemory_refl s, rfl, ⟨rfl, rfl, fun _ => rfl⟩, rfl, rfl, rfl⟩

/-- Settles O35: each commits one write, the removal of the page of Rs from its TLB. -/
theorem flushTlbRemovesPage : Obligations.FlushTlbRemovesPage := by
  intro p rs s hp
  constructor
  · exact ⟨_, exec_write (i := .flush p false .dtlb rs) (w := .flushTlb .data (virtualPage (s.readReg rs))) (fs := [])
      hp rfl, fun _ => mem_flushTlbPage_data, rfl, flushTlbPage_frame s .data _⟩
  · exact ⟨_, exec_write (i := .flush p false .itlb rs) (w := .flushTlb .inst (virtualPage (s.readReg rs))) (fs := [])
      hp rfl, fun _ => mem_flushTlbPage_inst, rfl, flushTlbPage_frame s .inst _⟩

/-! FLUSH.DATA and FLUSH.INST (46_system.md R204, 20_memory.md R53, R68). -/

section FlushLine
variable {s : State} {which : TlbId} {write : Word → Write} {va pa : Word} {x : Translation}
  {f : MemFault}

theorem Lane.flushLine_of_ok (h : x.result = .ok pa) :
    Lane.flushLine which write va x = { writes := [write pa], fills := fillsOf which x } := by
  simp only [Lane.flushLine, h]

theorem Lane.flushLine_of_error (h : x.result = .error f) :
    Lane.flushLine which write va x = { exn := some (dataExn va f), fills := fillsOf which x } := by
  simp only [Lane.flushLine, h]

/-- A line flush of an address that translates, whatever PG is: the walk's entry goes into the TLB, then the line is
flushed. -/
theorem exec_flushLine_of_ok {i : Instr} (hp : s.holds i.pred = true)
    (hlane : issue i 0 s = Lane.flushLine which write va x) (h : x.result = .ok pa) :
    exec i s = .next ((write pa).apply (s.fillOption which x.fill).pastPacket) := by
  rw [← applyFills_fillsOf]
  exact exec_write hp (hlane.trans (Lane.flushLine_of_ok h))

/-- A line flush of an address that does not translate. -/
theorem exec_flushLine_of_error {i : Instr} (hp : s.holds i.pred = true)
    (hlane : issue i 0 s = Lane.flushLine which write va x) (h : x.result = .error f) :
    ∃ t, exec i s = .next t ∧ s.Trapped t (specCode f) 0#32 0#32 0#32 va s.ea1 :=
  exec_dataExn_trapped hp (hlane.trans (Lane.flushLine_of_error h))

/-- The older values that a fetch may see after FLUSH.INST: of the line what L2 may hold, of other lines as before
(20_memory.md R68). -/
theorem mem_flushInstLine {v : Nat × Word} :
    v ∈ (s.flushInstLine pa).l1iOld ↔
      (v ∈ s.l1iOld ∧ lineOf v.1 ≠ lineOf pa.toNat) ∨ (v ∈ s.l2Old ∧ lineOf v.1 = lineOf pa.toNat) := by
  rw [flushInstLine_l1iOld, List.mem_append, Versions.mem_dropLine, Versions.mem_inLine]

theorem flushDataLine_storeFrame (s : State) (fill : Option TlbEntry) (pa : Word) :
    s.StoreFrame ((s.fillOption .data fill).pastPacket.flushDataLine pa) s.link fill :=
  ⟨fun _ => rfl, rfl, rfl, rfl, rfl, ⟨rfl, ⟨rfl, rfl, fun _ => rfl⟩, rfl, rfl, rfl⟩⟩

end FlushLine

/-- Settles O36: each commits one write, which drops or replaces the older values of the line. -/
theorem flushLine : Obligations.FlushLine := by
  intro p rs s pa hp
  constructor
  · intro hpa
    exact ⟨_, exec_flushLine_of_ok (i := .flush p false .data rs) hp rfl hpa, fun _ => Versions.mem_dropLine, rfl,
      fun _ => rfl, rfl, fun _ => rfl, flushDataLine_storeFrame s _ pa⟩
  · intro hpa
    exact ⟨_, exec_flushLine_of_ok (i := .flush p false .inst rs) hp rfl hpa, fun _ => mem_flushInstLine, rfl,
      fun _ => rfl, rfl, fun _ => rfl, fun _ => rfl, rfl, rfl, rfl, rfl, rfl, ⟨rfl, rfl, fun _ => rfl⟩, rfl, rfl, rfl⟩

/-- Settles O37: the lane of a line flush raises the exception of the failed translation, with Rs as its address. -/
theorem flushFaultsTrap : Obligations.FlushFaultsTrap := fun p rs _ _ hp =>
  ⟨fun hf => exec_flushLine_of_error (i := .flush p false .data rs) hp rfl hf,
    fun hf => exec_flushLine_of_error (i := .flush p false .inst rs) hp rfl hf⟩

/-! MFC (46_system.md R205, 10_state.md R19, R20). -/

/-- The fourteen numbers and their registers (10_state.md R19). -/
theorem cprOf_eq_some_iff (n : CprNum) (c : Cpr) :
    cprOf n = some c ↔
      (n.val, c) ∈ [(0, Cpr.pflags), (1, .ptb), (2, .eha), (3, .epc), (4, .ec0), (5, .ec1), (6, .ec2), (7, .ec3),
        (8, .ea0), (9, .ea1), (16, .sp0), (17, .sp1), (18, .sp2), (19, .sp3)] := by
  revert n
  cases c <;> decide

/-- The bits of PFLAGS that exist are read and written as they are (10_state.md R20). -/
theorem pflagsMask_low (v : Word) : (v &&& pflagsMask).extractLsb' 0 2 = v.extractLsb' 0 2 := by
  apply BitVec.eq_of_getLsbD_eq
  intro i hi
  simp only [BitVec.getLsbD_extractLsb', hi, decide_true, Bool.true_and, BitVec.getLsbD_and, pflagsMask]
  interval_cases i <;> simp

theorem laneMfc_of_kernel {rd : Reg} {n : CprNum} {c : Cpr} {s : State} (hmode : s.mode = .kernel)
    (hc : cprOf n = some c) : laneMfc rd n s = Lane.setReg rd (s.readCpr c) := by
  simp only [laneMfc, hc, Lane.privileged_of_kernel hmode]

/-- Settles O38: the table of numbers, the field that each register is, and MFC's lane, which writes it to Rd. -/
theorem mfcReads : Obligations.MfcReads := by
  refine ⟨cprOf_eq_some_iff, fun s => ⟨rfl, rfl, rfl, rfl, rfl, rfl, rfl, rfl, rfl, rfl, rfl, rfl, rfl⟩,
    fun p rd n c s hp hmode hc => ?_⟩
  obtain ⟨t, hexec, hwrote⟩ := exec_wroteReg (i := .mfc p rd n) hp (laneMfc_of_kernel hmode hc) rfl
  refine ⟨t, hexec, hwrote, ?_⟩
  rintro rfl
  exact ⟨pflagsMask_low s.pflags, pflagsMask_reserved s.pflags⟩

/-! MTC (46_system.md R206, 20_memory.md R60). -/

theorem laneMtc_of_kernel {n : CprNum} {rs : Reg} {c : Cpr} {s : State} (hmode : s.mode = .kernel)
    (hc : cprOf n = some c) : laneMtc n rs s = { writes := [.cpr c (s.readReg rs)] } := by
  simp only [laneMtc, hc, Lane.privileged_of_kernel hmode]

/-- A write to PTB leaves exactly the global entries in both TLBs (20_memory.md R60). -/
theorem writeCpr_ptb_tlbs (s : State) (v : Word) :
    (∀ e, e ∈ (s.writeCpr .ptb v).dtlb ↔ e ∈ s.dtlb ∧ e.g = true) ∧
      (∀ e, e ∈ (s.writeCpr .ptb v).itlb ↔ e ∈ s.itlb ∧ e.g = true) :=
  ⟨fun _ => List.mem_filter, fun _ => List.mem_filter⟩

/-- A write to any other coprocessor register leaves the TLBs alone (20_memory.md R60, R61). -/
theorem writeCpr_keepsTlbs (s : State) {c : Cpr} (v : Word) (hc : c ≠ .ptb) : s.keepsTlbs (s.writeCpr c v) := by
  cases c with
  | ptb => exact absurd rfl hc
  | _ => exact ⟨rfl, rfl⟩

theorem writeCpr_keepsPreds (s : State) (c : Cpr) (v : Word) : s.keepsPreds (s.writeCpr c v) := by
  intro n
  simp only [State.readPred, writeCpr_p0, writeCpr_p1, writeCpr_p2]

theorem writeCpr_keepsMemory (s : State) (c : Cpr) (v : Word) : s.keepsMemory (s.writeCpr c v) :=
  ⟨fun a => congrArg (Memory.read · a) (writeCpr_mem s c v), writeCpr_l2Old s c v, writeCpr_l1iOld s c v,
    writeCpr_periphLog s c v⟩

/-- Settles O39: in kernel mode MTC's one write is that of the register named, with PTB's effect on the TLBs. -/
theorem mtcWrites : Obligations.MtcWrites := by
  intro p n rs c s hp hmode hc
  have hexec : exec (.mtc p n rs) s = .next (s.pastPacket.writeCpr c (s.readReg rs)) :=
    exec_write (w := .cpr c (s.readReg rs)) (fs := []) hp (laneMtc_of_kernel hmode hc)
  refine ⟨_, hexec, ?value, fun d hd => ?others, ?ptb, writeCpr_keepsTlbs s.pastPacket _, writeCpr_pc ..,
    writeCpr_mode .., writeCpr_link .., readReg_congr (writeCpr_regs ..), writeCpr_keepsPreds s.pastPacket c _, writeCpr_ovf ..,
    writeCpr_keepsMemory s.pastPacket c _, writeCpr_irq .., writeCpr_tick .., writeCpr_params ..⟩
  case value => rw [readCpr_writeCpr, if_pos rfl]; rfl
  case others => rw [readCpr_writeCpr, if_neg hd]; rfl
  case ptb =>
    rintro rfl
    exact writeCpr_ptb_tlbs s.pastPacket _

end Sys2Proof.Machine
end

section
/-! PROOFS. Exceptions (60_exceptions.md): the traps of division by 0 and of privileged instructions in user mode, of
interrupts and of failed fetches, and that user mode changes no coprocessor register and reaches kernel mode only by
trap entry. -/

namespace Sys2Proof.Machine

/-! A lone instruction that raises without an address (60_exceptions.md R234 to R237). -/

/-- An executing instruction whose lane raises an exception without an address, and has no walk, takes the trap in lane 0
and keeps EA0, EA1 and the TLBs; destinations of its own do not matter. -/
theorem exec_trapped_keepsTlbs {i : Instr} {s : State} {e : Exn} {ds : List Dest} (hp : s.holds i.pred = true)
    (hea : e.ea = none) (hlane : issue i 0 s = { exn := some e, dests := ds }) :
    ∃ t, exec i s = .next t ∧ s.Trapped t e.code 0#32 0#32 0#32 s.ea0 s.ea1 ∧ s.keepsTlbs t := by
  rw [exec_eq_execAlone, hlane]
  obtain ⟨t, hnext, htrapped, hdtlb, hitlb, -⟩ :=
    execAlone_trapped i.pred { exn := some e, dests := ds } s e hp rfl rfl
  rw [hea] at htrapped
  exact ⟨t, hnext, htrapped, hdtlb, hitlb⟩

/-! Division by 0 (45_muldiv.md R191, 60_exceptions.md R227). -/

theorem laneDiv_of_zero {sg wide : Bool} {rt rd rs : Reg} {s : State} (hrt : s.readReg rt = 0#32) :
    laneDiv sg rt wide rd rs s = { exn := some .divideByZero, dests := [.reg rd, .ovf] } :=
  if_pos hrt

/-- Settles O30: DIV's lane raises before it looks at S, W or the dividend. -/
theorem divideByZeroTraps : Obligations.DivideByZeroTraps := fun p sg wide rt rd rs _ hp hrt =>
  exec_trapped_keepsTlbs (i := .div p sg rt wide rd rs) hp rfl (laneDiv_of_zero hrt)

/-! Privileged instructions in user mode (60_exceptions.md R223, R243). -/

theorem Lane.privileged_of_user {l : Lane} {s : State} (h : s.mode = .user) :
    l.privileged s = { exn := some .insufficientPermissions, dests := l.dests } :=
  if_pos h

/-- The numbers 0 to 9 and 16 to 19 name a register each (10_state.md R19). -/
theorem exists_cprOf_eq_some {n : CprNum} (h : n.val ≤ 9 ∨ (16 ≤ n.val ∧ n.val ≤ 19)) : ∃ c, cprOf n = some c := by
  rw [← Option.isSome_iff_exists, cprOf_isSome]
  simpa [cprDefined] using h

theorem laneMfc_of_user {rd : Reg} {n : CprNum} {c : Cpr} {s : State} (hmode : s.mode = .user)
    (hc : cprOf n = some c) : laneMfc rd n s = { exn := some .insufficientPermissions, dests := [.reg rd] } := by
  simp only [laneMfc, hc, Lane.privileged_of_user hmode, Lane.setReg]

theorem laneMtc_of_user {n : CprNum} {rs : Reg} {c : Cpr} {s : State} (hmode : s.mode = .user)
    (hc : cprOf n = some c) : laneMtc n rs s = { exn := some .insufficientPermissions } := by
  simp only [laneMtc, hc, Lane.privileged_of_user hmode]

/-- Settles O40: in user mode the lanes of ERET and, for a register that exists, of MFC and MTC raise and write
nothing. -/
theorem privilegedInUserModeTraps : Obligations.PrivilegedInUserModeTraps := by
  intro p s hp hmode
  refine ⟨exec_trapped_keepsTlbs (i := .eret p) hp rfl (Lane.privileged_of_user hmode), fun n r hn => ?_⟩
  obtain ⟨c, hc⟩ := exists_cprOf_eq_some hn
  exact ⟨exec_trapped_keepsTlbs (i := .mfc p r n) hp rfl (laneMfc_of_user hmode hc),
    exec_trapped_keepsTlbs (i := .mtc p n r) hp rfl (laneMtc_of_user hmode hc)⟩

/-! Trap entry through a step (60_exceptions.md R235). -/

/-- Trap entry says nothing of the TLBs, of the interrupt request or of the count of steps: a trap from a state that
differs from `s` in its TLBs only, such as the one after the fetch's walk, is still a trap from `s` after what happens
between steps. -/
theorem State.Trapped.betweenSteps {s t : State} {dtlb itlb : List TlbEntry} {c0 c1 c2 c3 a0 a1 : Word}
    (h : { s with dtlb := dtlb, itlb := itlb }.Trapped t c0 c1 c2 c3 a0 a1) :
    s.Trapped t.betweenSteps c0 c1 c2 c3 a0 a1 :=
  { h with }

/-- A core step that enters a trap for an event of no lane is a step that does (60_exceptions.md R221, R226, R228). -/
theorem step_trapNoLane {s : State} {code : Word} {dtlb itlb : List TlbEntry}
    (h : coreStep s = .next (trapNoLane code { s with dtlb := dtlb, itlb := itlb })) :
    ∃ t, step s = .next t ∧ s.Trapped t code 0#32 0#32 0#32 s.ea0 s.ea1 :=
  ⟨_, step_of_coreStep h, (trapEntry_trapped code codeNoError codeNoError codeNoError none none _).betweenSteps⟩

/-! Interrupts and failed fetches (60_exceptions.md R221, R226, R228, R232). -/

theorem interrupted_eq_false_iff (s : State) : s.interrupted = false ↔ s.ie = false ∨ s.irq = false :=
  Bool.and_eq_false_iff

theorem coreStep_of_interrupted {s : State} (h : s.interrupted = true) :
    coreStep s = .next (trapNoLane codeInterrupt s) :=
  if_pos h

theorem coreStep_of_fetchFault {s : State} {f : MemFault} (hint : s.interrupted = false)
    (hf : (fetchTranslation s).result = .error f) :
    coreStep s = .next (trapNoLane (fetchFaultCode f) (afterFetch s)) := by
  simp [coreStep, hint, hf]

theorem fetchFaultCode_eq (f : MemFault) : fetchFaultCode f = if f = .pageFault then 1#32 else 6#32 := by
  cases f <;> rfl

/-- Settles O51: with IE and the request both set the core takes the interrupt, whatever pc is. -/
theorem interruptTaken : Obligations.InterruptTaken := by
  intro s hie hirq
  have hint : s.interrupted = true := Bool.and_eq_true_iff.2 ⟨hie, hirq⟩
  exact step_trapNoLane (dtlb := s.dtlb) (itlb := s.itlb) (coreStep_of_interrupted hint)

/-- Settles O52: without an interrupt the core takes the fault of the fetch, from a state that differs at most by the
entry which the fetch's walk left in the instruction TLB. -/
theorem fetchFaultTaken : Obligations.FetchFaultTaken := by
  intro s f hquiet hf
  rw [← fetchFaultCode_eq]
  exact step_trapNoLane (dtlb := (afterFetch s).dtlb) (itlb := (afterFetch s).itlb)
    (coreStep_of_fetchFault ((interrupted_eq_false_iff s).2 hquiet) hf)

/-! User mode (10_state.md R17, 60_exceptions.md R242, R243). -/

theorem State.keepsControl.trans {s t u : State} (hst : s.keepsControl t) (htu : t.keepsControl u) :
    s.keepsControl u := by
  obtain ⟨hmode, hpflags, hcpr⟩ := hst
  obtain ⟨hmode', hpflags', hcpr'⟩ := htu
  exact ⟨hmode'.trans hmode, hpflags'.trans hpflags, fun c => (hcpr' c).trans (hcpr c)⟩

/-- Of the pending writes only that of an MTC and the return from a trap touch the mode or a coprocessor register. -/
theorem Write.apply_keepsControl {w : Write} (hcpr : ∀ c v, w ≠ .cpr c v) (hreturn : w ≠ .trapReturn) (u : State) :
    u.keepsControl (w.apply u) := by
  have hfields : (w.apply u).mode = u.mode ∧ (w.apply u).pflags = u.pflags := by
    cases w with
    | cpr c v => exact absurd rfl (hcpr c v)
    | trapReturn => exact absurd rfl hreturn
    | pred n b => exact ⟨writePred_mode u n b, writePred_pflags u n b⟩
    | store pa sz v => exact ⟨commitStore_mode u pa sz v, commitStore_pflags u pa sz v⟩
    | flushTlb which vpage => exact ⟨flushTlbPage_mode u which vpage, flushTlbPage_pflags u which vpage⟩
    | reg | ovf | event | link | pc | flushData | flushInst => exact ⟨rfl, rfl⟩
  obtain ⟨hmode, hpflags⟩ := hfields
  refine ⟨hmode, hpflags, fun c => ?_⟩
  by_cases hc : c = .pflags
  · subst hc
    exact congrArg (· &&& pflagsMask) hpflags
  · exact (Write.apply_readCpr hc u w).resolve_right (hcpr c _)

/-- Only an ERET of kernel mode returns from a trap (60_exceptions.md R243). -/
theorem PacketMayWrite.kernel_of_trapReturn {pk : Packet} {s : State} (h : PacketMayWrite pk s .trapReturn) :
    s.mode = .kernel := by
  obtain ⟨r, v, he⟩ | ⟨k, i, -, -, -, hi⟩ := h
  · cases he
  · cases hi with
    | trapReturn _ hmode => exact hmode

/-- Whatever a packet of user mode may write keeps the mode and every coprocessor register. -/
theorem PacketMayWrite.apply_keepsControl {pk : Packet} {s : State} {w : Write} (hw : PacketMayWrite pk s w)
    (hmode : s.mode = .user) (u : State) : u.keepsControl (w.apply u) := by
  have hnotKernel : s.mode ≠ .kernel := by rw [hmode]; nofun
  refine Write.apply_keepsControl ?_ ?_ u
  · rintro c v rfl
    exact hnotKernel hw.of_cpr.1
  · rintro rfl
    exact hnotKernel hw.kernel_of_trapReturn

/-- A commit of writes that each keep the mode and the coprocessor registers keeps them, the draw of log 21 included. -/
theorem commit_keepsControl {ws : List Write} (hws : ∀ w ∈ ws, ∀ u : State, u.keepsControl (w.apply u)) (s : State) :
    s.keepsControl (commit ws s) :=
  commit_keeps (P := s.keepsControl) ⟨rfl, rfl, fun _ => rfl⟩ (fun w hw u hu => hu.trans (hws w hw u))
    fun _ _ _ hu => hu.trans ⟨rfl, rfl, fun _ => rfl⟩

/-- Settles O57: a step enters a trap, or commits writes of a packet; in user mode none of these is an MTC's or an ERET's,
the only ones that touch the mode or a coprocessor register. -/
theorem userModeIsolation : Obligations.UserModeIsolation := by
  intro s t hmode hstep
  obtain ⟨u, hcore, rfl⟩ := step_next hstep
  obtain ⟨dtlb, itlb, ⟨c0, c1, c2, c3, a0, a1, rfl⟩ | ⟨pa, ws, -, rfl, hws⟩⟩ := coreStep_next hcore
  · exact .inr (trapEntry_trapped c0 c1 c2 c3 a0 a1 _).betweenSteps
  · have hkept : ∀ w ∈ ws, ∀ u : State, u.keepsControl (w.apply u) := fun w hw u =>
      (hws w hw).apply_keepsControl hmode u
    obtain ⟨hmode', hpflags, hcpr⟩ := commit_keepsControl hkept { s with dtlb := dtlb, itlb := itlb }
    exact .inl ⟨hmode'.trans hmode, hpflags, hcpr⟩

end Sys2Proof.Machine
end

section
/-! PROOFS. A register operand shifted by a constant or by a register (40_packet_execution.md R123, R124). -/

namespace Sys2Proof.Machine

/-- Each shift by a constant is the one computed on natural numbers and integers (40_packet_execution.md R123). -/
theorem shiftConst_eq_specShift (shf : Shf) (amt : BitVec 5) (v : Word) :
    shiftConst shf amt v = specShift shf v amt.toNat := by
  cases shf with
  | lsl =>
    apply BitVec.eq_of_toNat_eq
    rw [shiftConst, specShift, BitVec.toNat_shiftLeft, BitVec.toNat_ofNat, Nat.shiftLeft_eq]
  | lsr =>
    have hlt : v.toNat / 2 ^ amt.toNat < 2 ^ 32 := (Nat.div_le_self ..).trans_lt v.isLt
    apply BitVec.eq_of_toNat_eq
    rw [shiftConst, specShift, BitVec.toNat_ushiftRight, BitVec.toNat_ofNat, Nat.shiftRight_eq_div_pow,
      Nat.mod_eq_of_lt hlt]
  | asr =>
    have hint : (v.sshiftRight amt.toNat).toInt = v.toInt / 2 ^ amt.toNat := by
      rw [BitVec.toInt_sshiftRight, Int.shiftRight_eq_div_pow, Nat.cast_pow, Nat.cast_ofNat]
    rw [shiftConst, specShift, ← hint, BitVec.ofInt_toInt]
  | ror => exact rotateRight_eq_specRor v amt.isLt

/-- A shift by 0 changes nothing, whatever its type (40_packet_execution.md R123). -/
theorem shiftConst_zero (shf : Shf) (v : Word) : shiftConst shf 0#5 v = v := by
  cases shf with
  | lsl | lsr | asr => simp [shiftConst]
  | ror => exact BitVec.eq_of_getLsbD_eq fun i hi => by simp [shiftConst, hi]

/-- Settles O6: each shift is that of R123, and a shift by 0 is none. -/
theorem constantShifts : Obligations.ConstantShifts := fun shf amt v =>
  ⟨shiftConst_eq_specShift shf amt v, shiftConst_zero shf v⟩

/-- An amount of at most 31 in a register shifts as the constant does (40_packet_execution.md R124). -/
theorem shiftReg_of_le {a : Word} (h : a.toNat ≤ 31) (shf : Shf) (v : Word) :
    shiftReg shf a v = shiftConst shf (BitVec.ofNat 5 a.toNat) v := by
  have hmod : a.toNat % 32 = a.toNat := Nat.mod_eq_of_lt (by omega)
  have hamt : (BitVec.ofNat 5 a.toNat).toNat = a.toNat := hmod
  cases shf with
  | lsl | lsr | asr => rw [shiftReg, shiftConst, if_pos h, hamt]
  | ror => rw [shiftReg, shiftConst, hmod, hamt]

/-- Settles O7: up to 31 the amount is one of R123's; above it the model's own branch is that of R124, and the rotation
is by the amount modulo 32. -/
theorem registerShifts : Obligations.RegisterShifts := by
  intro a v
  refine ⟨fun shf h => ?_, fun h => ?_⟩
  · have hamt : (BitVec.ofNat 5 a.toNat).toNat = a.toNat := Nat.mod_eq_of_lt (by omega)
    rw [shiftReg_of_le h, shiftConst_eq_specShift, hamt]
  · have hgt : ¬a.toNat ≤ 31 := Nat.not_le.2 h
    exact ⟨if_neg hgt, if_neg hgt, if_neg hgt, rotateRight_eq_specRor v (Nat.mod_lt _ (by decide))⟩

end Sys2Proof.Machine
end

section
/-! PROOFS. The slots of a packet: operand slots, and what every other slot holds (30_encoding.md R81, R103, R105,
40_packet_execution.md R111). -/

namespace Sys2Proof.Machine

theorem isLong_iff (w : Word) : isLong w = true ↔ w.extractLsb' 14 15 = 0b100000000000000#15 := beq_iff_eq

theorem instrSlot_ne_operand (w next : Word) : instrSlot w next ≠ .operand := by
  unfold instrSlot
  split <;> nofun

/-- A slot that is no operand slot holds what its word decodes to (30_encoding.md R81, R103). -/
theorem instrSlot_holdsWord (w next : Word) : HoldsWord (instrSlot w next) w next := by
  unfold instrSlot
  refine ⟨fun i hi => ?_, fun e he => ⟨predField w, ?_, rfl, rfl⟩⟩
  · rw [hi]
  · rw [he]

/-- A slot that may be an operand slot is one exactly where the slot before it asks for it. -/
theorem operandSlot_iff (long : Bool) (w next : Word) :
    (if long then Slot.operand else instrSlot w next) = .operand ↔ long = true := by
  cases long with
  | true => simp
  | false => simp [instrSlot_ne_operand]

theorem operandSlot_holdsWord {long : Bool} (h : long ≠ true) (w next : Word) :
    HoldsWord (if long then Slot.operand else instrSlot w next) w next := by
  rw [if_neg h]
  exact instrSlot_holdsWord w next

/-- Settles O4: slot 0 is never an operand slot, and each later slot is decided by the words before it. -/
theorem operandSlots : Obligations.OperandSlots := by
  intro w0 w1 w2 w3
  have hlong1 : (!isLong w0 && isLong w1) = true ↔ isLong w0 = false ∧ isLong w1 = true := by simp
  have hlong2 : (!(!isLong w0 && isLong w1) && isLong w2) = true ↔
      (isLong w0 = true ∨ isLong w1 = false) ∧ isLong w2 = true := by simp
  refine ⟨isLong_iff, instrSlot_ne_operand w0 w1, operandSlot_iff _ w1 w2, (operandSlot_iff _ w2 w3).trans hlong1,
    (operandSlot_iff _ w3 _).trans hlong2, instrSlot_holdsWord w0 w1, fun h => ?_, fun h => ?_, fun h => ⟨0#32, ?_⟩⟩
  · exact operandSlot_holdsWord (ne_true_of_eq_false h) w1 w2
  · exact operandSlot_holdsWord (h ∘ hlong1.1) w2 w3
  · exact operandSlot_holdsWord (h ∘ hlong2.1) w3 _

end Sys2Proof.Machine
end

section
/-! PROOFS. One instruction in a packet whose other slots contribute nothing, a false predicate, and the slots that
raise IllegalInstruction (40_packet_execution.md R111 to R114, R118, 30_encoding.md R103). -/

namespace Sys2Proof.Machine

/-! False predicates (40_packet_execution.md R113). -/

theorem holds_eq_false_of_readPred {s : State} {p : Pred} (h : s.readPred p.reg = p.inv) : s.holds p = false := by
  rw [State.holds, h, Bool.xor_self]

/-- Settles O42: P3 is no field of the state, and an instruction alone with a false predicate only moves pc on. -/
theorem falsePredicateSkips : Obligations.FalsePredicateSkips :=
  ⟨readPred_three, fun i s h => by
    rw [exec_eq_execAlone, execAlone_skip _ _ _ (holds_eq_false_of_readPred h)]⟩

/-! Which slots an instruction may occupy (40_packet_execution.md R112). -/

theorem mayOccupy_zero (i : Instr) : mayOccupy i 0 = true := by
  unfold mayOccupy
  cases i.format.type <;> simp

theorem mayOccupy_of_alu {i : Instr} {k : Fin 4} (hi : i.format.type = .alu) (hlong : i.format = .aluLong → k ≠ 3) :
    mayOccupy i k = true := by
  simp only [mayOccupy, hi, Bool.or_eq_true, decide_eq_true_eq]
  by_cases h : i.format = .aluLong
  · have hk : k.val ≠ 3 := fun e => hlong h (Fin.ext e)
    exact .inr (by omega)
  · exact .inl h

/-- The slots that R112 forbids. -/
theorem mayOccupy_eq_false {i : Instr} {k : Fin 4}
    (h : (i.format.type = .control ∧ k ≠ 0) ∨ (i.format.type = .memory ∧ 2 ≤ k.val) ∨
      (i.format = .aluLong ∧ k = 3)) : mayOccupy i k = false := by
  obtain ⟨hi, hk⟩ | ⟨hi, hk⟩ | ⟨hi, rfl⟩ := h
  · have hval : k.val ≠ 0 := fun e => hk (Fin.ext e)
    simp [mayOccupy, hi, hval]
  · have hval : ¬k.val ≤ 1 := by omega
    simp [mayOccupy, hi, hval]
  · simp [mayOccupy, hi, Format.type]

/-! Lanes of slots (40_packet_execution.md R111 to R113). -/

/-- The lane of an instruction in a slot that it may occupy. -/
theorem laneAt_of_mayOccupy {pk : Packet} {k : Fin 4} {i : Instr} (s : State) (hslot : slotAt pk k = .instr i)
    (hk : mayOccupy i k = true) : laneAt pk s k = (issue i k s).gate i.pred s := by
  rw [laneAt, hslot, slotLane, if_pos hk]

/-- A slot with a false predicate contributes at most its destinations (40_packet_execution.md R113; log 17). -/
theorem slotLane_unexecuted {k : Fin 4} {x : Slot} {s : State} (hinstr : ∀ i, x = .instr i → s.holds i.pred = false)
    (hundefined : ∀ q e, x = .undefined q e → s.holds q = false) : ∃ l : Lane, slotLane k x s = l.unexecuted s := by
  cases x with
  | operand => exact ⟨Lane.idle, (Lane.unexecuted_eq_idle _ _ (.inr rfl)).symm⟩
  | undefined q e => exact ⟨_, Lane.gate_of_not_holds _ _ _ (hundefined q e rfl)⟩
  | instr i => exact ⟨_, Lane.gate_of_not_holds _ _ _ (hinstr i rfl)⟩

/-- Settles O44: an executing slot that is undefined or misplaced holds the lane of the exception alone, and a slot that
does not execute the idle lane but for its destinations. -/
theorem illegalSlots : Obligations.IllegalSlots := by
  intro k s
  refine ⟨fun q e hq => ?_, fun i hi hslot => ?_, rfl, fun x hinstr hundefined => ?_⟩
  · rw [slotLane, Lane.gate_of_holds _ _ _ hq]
    exact ⟨rfl, rfl⟩
  · have hlane : slotLane k (.instr i) s = (issue i k s).misplaced := by
      rw [slotLane, mayOccupy_eq_false hslot, Lane.gate_of_holds _ _ _ hi, if_neg Bool.false_ne_true]
    rw [hlane]
    exact ⟨rfl, rfl⟩
  · obtain ⟨l, hl⟩ := slotLane_unexecuted (k := k) hinstr hundefined
    rw [hl]
    exact ⟨rfl, fun hdyn => Lane.unexecuted_eq_idle l s (.inl hdyn)⟩

/-! An instruction alone (40_packet_execution.md R114, R118). -/

theorem alonePacket_only (i : Instr) (s : State) : Only (alonePacket i) 0 i s := by
  refine ⟨rfl, fun j hj => ?_⟩
  match j with
  | 0 => exact absurd rfl hj
  | 1 | 2 | 3 => rfl

/-- A packet with an instruction in slot 0, beside slots that contribute nothing, is exec of it. -/
theorem Only.runPacket_slot0 {pk : Packet} {i : Instr} {s : State} (h : Only pk 0 i s) : runPacket pk s = exec i s := by
  obtain ⟨hslot, hidle⟩ := h
  rw [runPacket_eq, laneAt_of_mayOccupy s hslot (mayOccupy_zero i), hidle 1 (by decide), hidle 2 (by decide),
    hidle 3 (by decide), exec_eq_execAlone, execAlone]

/-- An ALU instruction computes the same in every slot, raises nothing, and has no access (41_alu.md, 42_compare.md). -/
theorem issue_alu {i : Instr} (h : i.format.type = .alu) (k : Fin 4) (s : State) :
    issue i k s = issue i 0 s ∧ (issue i k s).exn = none ∧ (issue i k s).Plain := by
  cases i with
  | lb | lh | lw | ll | sb | sh | sw | sc | bImm | bReg | blImm | blReg | brk | syscall | fence | eret | flush | mfc
  | mtc | mult | div | mfhi | mthi => cases h
  | _ => exact ⟨rfl, rfl, rfl, rfl⟩

/-- A quiet packet without an access in slot 1 commits the writes of its slots in slot order. -/
theorem Quiet.runPacket_of_no_access {pk : Packet} {s : State} (h : Quiet pk s)
    (haccess : (laneAt pk s 1).access = none) :
    runPacket pk s = .next (commit ((laneAt pk s 0).writes ++ (laneAt pk s 1).writes ++ (laneAt pk s 2).writes ++
        (laneAt pk s 3).writes)
      (applyFills ((laneAt pk s 0).fills ++ (laneAt pk s 1).fills ++ (laneAt pk s 2).fills ++ (laneAt pk s 3).fills)
        s)) := by
  rw [h.runPacket_eq, memoryWrites_of_no_access _ _ _ haccess, Option.elim_some]

/-- A lone slot that raises nothing makes a quiet packet. -/
theorem quiet_of_lone {pk : Packet} {k : Fin 4} {s : State} (hidle : ∀ j, j ≠ k → laneAt pk s j = Lane.idle)
    (hexn : (laneAt pk s k).exn = none) (hplain : (laneAt pk s k).Plain) : Quiet pk s := by
  have only_k {j : Fin 4} {d : Dest} (hd : d ∈ (laneAt pk s j).dests) : j = k := by
    by_contra hj
    rw [hidle j hj] at hd
    cases hd
  have raises_nothing (j : Fin 4) : (laneAt pk s j).exn = none ∧ (laneAt pk s j).refusal = none := by
    by_cases hj : j = k
    · exact hj ▸ ⟨hexn, hplain.1⟩
    · rw [hidle j hj]
      exact ⟨rfl, rfl⟩
  exact ⟨fun j => (raises_nothing j).1, fun j => (raises_nothing j).2,
    fun j ⟨j', hj', d, hd, hd'⟩ => hj' ((only_k hd').trans (only_k hd).symm)⟩

/-- A lone slot that raises nothing and accesses no memory commits its writes, whichever slot it is. -/
theorem runPacket_of_lone {pk : Packet} {k : Fin 4} {s : State} (hidle : ∀ j, j ≠ k → laneAt pk s j = Lane.idle)
    (hexn : (laneAt pk s k).exn = none) (hplain : (laneAt pk s k).Plain) :
    runPacket pk s = .next (commit (laneAt pk s k).writes (applyFills (laneAt pk s k).fills s)) := by
  have haccess : (laneAt pk s 1).access = none := by
    by_cases hk : 1 = k
    · rw [hk]; exact hplain.2
    · rw [hidle 1 hk]; rfl
  rw [(quiet_of_lone hidle hexn hplain).runPacket_of_no_access haccess]
  match k with
  | 0 => simp [hidle 1, hidle 2, hidle 3, Lane.idle]
  | 1 => simp [hidle 0, hidle 2, hidle 3, Lane.idle]
  | 2 => simp [hidle 0, hidle 1, hidle 3, Lane.idle]
  | 3 => simp [hidle 0, hidle 1, hidle 2, Lane.idle]

/-- Predication keeps a lane without an exception or an access one. -/
theorem Lane.gate_plain {l : Lane} {p : Pred} {s : State} (hexn : l.exn = none) (hplain : l.Plain) :
    (l.gate p s).exn = none ∧ (l.gate p s).Plain := by
  cases hp : s.holds p with
  | true => rw [Lane.gate_of_holds _ _ _ hp]; exact ⟨hexn, hplain⟩
  | false => rw [Lane.gate_of_not_holds _ _ _ hp]; exact ⟨rfl, rfl, rfl⟩

/-- An ALU instruction alone does the same in every slot that it may occupy. -/
theorem Only.runPacket_alu {pk : Packet} {k : Fin 4} {i : Instr} {s : State} (h : Only pk k i s)
    (hi : i.format.type = .alu) (hlong : i.format = .aluLong → k ≠ 3) : runPacket pk s = exec i s := by
  have hlane := laneAt_of_mayOccupy s h.1 (mayOccupy_of_alu hi hlong)
  have hlane0 : laneAt (alonePacket i) s 0 = (issue i 0 s).gate i.pred s :=
    laneAt_of_mayOccupy s rfl (mayOccupy_zero i)
  obtain ⟨hsame, hexn, hplain⟩ := issue_alu hi k s
  rw [hsame] at hlane hexn hplain
  obtain ⟨hexn, hplain⟩ := Lane.gate_plain (p := i.pred) hexn hplain
  have halone := alonePacket_only i s
  rw [← halone.runPacket_slot0, runPacket_of_lone h.2 (by rwa [hlane]) (by rwa [hlane]),
    runPacket_of_lone halone.2 (by rwa [hlane0]) (by rwa [hlane0]), hlane, hlane0]

/-- Settles O43: in slot 0 the packet is the one that exec ends, and an ALU instruction's lane does not depend on its
slot. -/
theorem execIsLonePacket : Obligations.ExecIsLonePacket := fun i s =>
  ⟨(alonePacket_only i s).runPacket_slot0.symm, fun _ h => h.runPacket_slot0,
    fun _ _ hi hlong h => h.runPacket_alu hi hlong⟩

/-! A step of one instruction (40_packet_execution.md R118). -/

theorem coreStep_of_fetch {s : State} {pa : Word} (hint : s.interrupted = false)
    (hpa : (fetchTranslation s).result = .ok pa) :
    coreStep s = runPacket (fetchedPacket s pa) (afterFetch s) := by
  simp [coreStep, hint, hpa]

theorem instrSlot_of_ok {w next : Word} {i : Instr} (h : decode w next = .ok i) : instrSlot w next = .instr i := by
  rw [instrSlot, h]

/-- With PG = 0 the fetch has no walk. -/
theorem afterFetch_pg_off {s : State} (h : s.pg = false) : afterFetch s = s :=
  afterFetch_of_no_fill s (by rw [fetchTranslation, translateValid_pg_off h])

/-- A step whose packet holds one instruction, in slot 0, is exec of it. -/
theorem step_of_only {s : State} {pa : Word} {i : Instr} (hint : s.interrupted = false)
    (hpa : (fetchTranslation s).result = .ok pa) (h : Only (fetchedPacket s pa) 0 i (afterFetch s)) :
    step s = closeStep (exec i (afterFetch s)) := by
  rw [step, coreStep_of_fetch hint hpa, h.runPacket_slot0]

/-- Settles O49: the fetched packet holds the decoded instruction alone. -/
theorem stepRunsDecodedInstruction : Obligations.StepRunsDecodedInstruction := by
  intro s pa i hquiet hpa hdecode hidle
  have hslot : slotAt (fetchedPacket s pa) 0 = .instr i := instrSlot_of_ok hdecode
  have hstep := step_of_only ((interrupted_eq_false_iff s).2 hquiet) hpa ⟨hslot, hidle⟩
  exact ⟨fun t ht => by rw [hstep, ht]; rfl, fun r hr => by rw [hstep, hr]; rfl, afterFetch_pg_off, fun _ => rfl⟩

end Sys2Proof.Machine
end

section
/-! PROOFS. An instruction placed for the next step (log 30): the packet that the step fetches holds it alone. -/

namespace Sys2Proof.Machine

/-! Reads beside a sized store (20_memory.md R44). -/

/-- A sized read depends on its own bytes only. -/
theorem readSized_congr {m m' : Memory} {a : Nat} {sz : Size} (h : ∀ j < sz.bytes, m'.read (a + j) = m.read (a + j)) :
    m'.readSized a sz = m.readSized a sz := by
  have h0 : m'.read a = m.read a := h 0 (by cases sz <;> decide)
  cases sz with
  | byte => simp only [Memory.readSized, h0]
  | half => simp only [Memory.readSized, h0, h 1 (by decide)]
  | word => simp only [Memory.readSized, Memory.readWord, h0, h 1 (by decide), h 2 (by decide), h 3 (by decide)]

/-- A sized store leaves a read of other bytes as it was. -/
theorem readSized_writeSized_disjoint (m : Memory) {a b : Nat} {sz sz' : Size} (v : Word)
    (h : b + sz'.bytes ≤ a ∨ a + sz.bytes ≤ b) : (m.writeSized a sz v).readSized b sz' = m.readSized b sz' :=
  readSized_congr fun j hj => Memory.read_writeSized_outside m a sz v (b + j) (by omega)

/-! The words of a placed packet (log 30). -/

/-- Every fetch of the word at `pa` reads `w`: RAM holds it and no older value of it is left. -/
def State.FetchesWord (s : State) (pa w : Word) : Prop :=
  s.mem.readWord pa.toNat = w ∧ ∀ u, (pa.toNat, u) ∉ s.l1iOld

theorem State.FetchesWord.fetchWord_eq {s : State} {pa w : Word} (h : s.FetchesWord pa w) (hram : isRam pa = true)
    (slot : Nat) : fetchWord s slot pa = w :=
  (fetchWord_of_no_older hram h.2).trans h.1

theorem State.FetchesWord.of_sameMemory {s t : State} {pa w : Word} (h : s.FetchesWord pa w) (hmem : t.mem = s.mem)
    (hl1i : t.l1iOld = s.l1iOld) : t.FetchesWord pa w := by
  rwa [State.FetchesWord, hmem, hl1i]

theorem placeWord_fetchesWord (s : State) (pa w : Word) : (s.placeWord pa w).FetchesWord pa w :=
  ⟨Memory.readSized_writeSized s.mem pa.toNat .word w, fun u hu => by
    rw [State.placeWord, List.mem_filter] at hu
    exact of_decide_eq_true hu.2 rfl⟩

/-- Placing a word beside one that is placed leaves that one. -/
theorem State.FetchesWord.placeWord {s : State} {pa w : Word} (h : s.FetchesWord pa w) {qa : Word} (v : Word)
    (hne : pa.toNat + 4 ≤ qa.toNat ∨ qa.toNat + 4 ≤ pa.toNat) : (s.placeWord qa v).FetchesWord pa w :=
  ⟨(readSized_writeSized_disjoint (sz := .word) (sz' := .word) s.mem v hne).trans h.1, fun u hu => by
    rw [State.placeWord, List.mem_filter] at hu
    exact h.2 u hu.1⟩

/-- The words of a packet in RAM lie in RAM, one after the other (20_memory.md R43, R46). -/
theorem packetWord_toNat {pa : Word} (hlow : pa.toNat % 16 = 0) (hram : pa.toNat < 0x20000000) {n : Nat} (hn : n < 16) :
    (pa + BitVec.ofNat 32 n).toNat = pa.toNat + n ∧ isRam (pa + BitVec.ofNat 32 n) = true := by
  have haddr : (pa + BitVec.ofNat 32 n).toNat = pa.toNat + n := by
    rw [BitVec.toNat_add, BitVec.toNat_ofNat]
    omega
  exact ⟨haddr, isRam_iff.2 (by omega)⟩

/-- A state with the memory of one after placing fetches the placed packet. -/
theorem fetchedPacket_of_placeInstr {s u : State} {pa w0 w1 : Word} (hlow : pa.toNat % 16 = 0)
    (hram : pa.toNat < 0x20000000) (hmem : u.mem = (s.placeInstr pa w0 w1).mem)
    (hl1i : u.l1iOld = (s.placeInstr pa w0 w1).l1iOld) :
    fetchedPacket u pa = decodePacket w0 (if isLong w0 then w1 else fillerWord) fillerWord fillerWord := by
  obtain ⟨haddr1, hram1⟩ := packetWord_toNat hlow hram (n := 4) (by decide)
  obtain ⟨haddr2, hram2⟩ := packetWord_toNat hlow hram (n := 8) (by decide)
  obtain ⟨haddr3, hram3⟩ := packetWord_toNat hlow hram (n := 12) (by decide)
  have h0 := (((placeWord_fetchesWord s pa w0).placeWord (if isLong w0 then w1 else fillerWord)
    (qa := pa + 4#32) (by omega)).placeWord fillerWord (qa := pa + 8#32) (by omega)).placeWord fillerWord
    (qa := pa + 12#32) (by omega)
  have h1 := ((placeWord_fetchesWord (s.placeWord pa w0) (pa + 4#32) (if isLong w0 then w1 else fillerWord)).placeWord
    fillerWord (qa := pa + 8#32) (by omega)).placeWord fillerWord (qa := pa + 12#32) (by omega)
  have h2 := (placeWord_fetchesWord ((s.placeWord pa w0).placeWord (pa + 4#32) (if isLong w0 then w1 else fillerWord))
    (pa + 8#32) fillerWord).placeWord fillerWord (qa := pa + 12#32) (by omega)
  have h3 := placeWord_fetchesWord (((s.placeWord pa w0).placeWord (pa + 4#32)
    (if isLong w0 then w1 else fillerWord)).placeWord (pa + 8#32) fillerWord) (pa + 12#32) fillerWord
  rw [← State.placeInstr] at h0 h1 h2 h3
  rw [fetchedPacket, (h0.of_sameMemory hmem hl1i).fetchWord_eq (isRam_iff.2 hram),
    (h1.of_sameMemory hmem hl1i).fetchWord_eq hram1, (h2.of_sameMemory hmem hl1i).fetchWord_eq hram2,
    (h3.of_sameMemory hmem hl1i).fetchWord_eq hram3]

/-! Fillers (log 30). -/

theorem decode_filler (next : Word) : decode fillerWord next = .ok (.cmpltuShort ⟨3, true⟩ 0#10 0#4 3 0) := rfl

/-- A filler contributes nothing, whatever DUPDEST_DYNAMIC is: it never executes and has no destination. -/
theorem slotLane_filler (k : Fin 4) (next : Word) (s : State) :
    slotLane k (instrSlot fillerWord next) s = Lane.idle := by
  have hoccupy : mayOccupy (.cmpltuShort ⟨3, true⟩ 0#10 0#4 3 0) k = true := mayOccupy_of_alu rfl nofun
  rw [instrSlot_of_ok (decode_filler next), slotLane, if_pos hoccupy, Lane.gate_of_not_holds _ _ _ rfl,
    Lane.unexecuted_eq_idle _ _ (.inr rfl)]

/-- Only ALU_LONG uses the following slot's word (30_encoding.md R96, R105). -/
theorem decode_next_irrelevant {w : Word} (h : isLong w = false) (next next' : Word) :
    decode w next = decode w next' := by
  obtain ⟨g, hg⟩ := exists_group w
  cases g with
  | short => rw [decode_of_short hg, decode_of_short hg]
  | reg => rw [decode_of_reg hg, decode_of_reg hg]
  | brImm => rw [decode_of_brImm hg, decode_of_brImm hg]
  | brReg => rw [decode_of_brReg hg, decode_of_brReg hg]
  | memory => rw [decode_of_memory hg, decode_of_memory hg]
  | ctrl => rw [decode_of_ctrl hg, decode_of_ctrl hg]
  | regsh => rw [decode_of_regsh hg, decode_of_regsh hg]
  | long => exact absurd (hg.isLong_eq.symm.trans h) nofun
  | filler => rw [decode_of_filler hg, decode_of_filler hg]
  | reserved => rw [decode_of_reserved hg, decode_of_reserved hg]

/-- The placed packet holds its instruction in slot 0, its operand in slot 1 if it has one, and fillers. -/
theorem placedPacket_only {w0 w1 : Word} {i : Instr} (h : decode w0 w1 = .ok i) (s : State) :
    Only (decodePacket w0 (if isLong w0 then w1 else fillerWord) fillerWord fillerWord) 0 i s := by
  have hfiller : isLong fillerWord = false := rfl
  cases hlong : isLong w0 with
  | true =>
    refine ⟨instrSlot_of_ok h, fun j hj => ?_⟩
    match j with
    | 0 => exact absurd rfl hj
    | 1 => simp [laneAt, slotAt, decodePacket, hlong, slotLane]
    | 2 | 3 => simp [laneAt, slotAt, decodePacket, hlong, hfiller, slotLane_filler]
  | false =>
    refine ⟨instrSlot_of_ok ((decode_next_irrelevant hlong ..).trans h), fun j hj => ?_⟩
    match j with
    | 0 => exact absurd rfl hj
    | 1 | 2 | 3 => simp [laneAt, slotAt, decodePacket, hlong, hfiller, slotLane_filler]

/-! The step after placing. -/

theorem fetchTranslation_of_ram_pg_off {s : State} (hpg : s.pg = false) (hram : s.pc.toNat < 0x20000000) :
    (fetchTranslation s).result = .ok s.pc := by
  rw [fetchTranslation_pg_off s hpg (validPhys_of_isRam (isRam_iff.2 hram))]

theorem placeInstr_pc (s : State) (pa w0 w1 : Word) : (s.placeInstr pa w0 w1).pc = s.pc := by
  simp only [State.placeInstr, placeWord_pc]

theorem placeInstr_pflags (s : State) (pa w0 w1 : Word) : (s.placeInstr pa w0 w1).pflags = s.pflags := by
  simp only [State.placeInstr, placeWord_pflags]

/-- Where the next step fetches from RAM the instruction is placed there, and no interrupt is pending (log 30). -/
theorem withFetchWord_of_ram_pg_off {s : State} (hpg : s.pg = false) (hram : s.pc.toNat < 0x20000000) (nbits w : Nat) :
    s.withFetchWord nbits w =
      { s.placeInstr s.pc (tableWords nbits w).1 (tableWords nbits w).2 with irq := false } := by
  rw [State.withFetchWord, fetchTranslation_of_ram_pg_off hpg hram]
  exact if_pos (isRam_iff.2 hram)

/-- What the step after placing depends on. -/
theorem withFetchWord_fields {s : State} (hpg : s.pg = false) (hram : s.pc.toNat < 0x20000000) (nbits w : Nat) :
    (s.withFetchWord nbits w).pc = s.pc ∧ (s.withFetchWord nbits w).pflags = s.pflags ∧
      (s.withFetchWord nbits w).irq = false ∧
      (s.withFetchWord nbits w).mem = (s.placeInstr s.pc (tableWords nbits w).1 (tableWords nbits w).2).mem ∧
      (s.withFetchWord nbits w).l1iOld =
        (s.placeInstr s.pc (tableWords nbits w).1 (tableWords nbits w).2).l1iOld := by
  have hpc := placeInstr_pc s s.pc (tableWords nbits w).1 (tableWords nbits w).2
  have hpflags := placeInstr_pflags s s.pc (tableWords nbits w).1 (tableWords nbits w).2
  rw [withFetchWord_of_ram_pg_off hpg hram]
  generalize s.placeInstr s.pc (tableWords nbits w).1 (tableWords nbits w).2 = placed at *
  exact ⟨hpc, hpflags, rfl, rfl, rfl⟩

/-- A table row that has an instruction decodes to it. -/
theorem decode_of_decodeTableWord {nbits w : Nat} {i : Instr} (h : decodeTableWord nbits w = some i) :
    decode (tableWords nbits w).1 (tableWords nbits w).2 = .ok i := by
  have hbytes := decodeBytes_words (tableWords nbits w).1 (tableWords nbits w).2 []
  rw [List.append_nil] at hbytes
  have hsome := hbytes.symm.trans h
  cases hdecode : decode (tableWords nbits w).1 (tableWords nbits w).2 with
  | ok j =>
    rw [hdecode] at hsome
    exact congrArg _ (Option.some.inj hsome)
  | error e =>
    rw [hdecode] at hsome
    cases hsome

/-- Settles O50: no interrupt is pending, the fetch reads the placed packet, and that packet holds the instruction
alone. -/
theorem placedInstructionRuns : Obligations.PlacedInstructionRuns := by
  intro s nbits w i hpg haligned hram hrow
  obtain ⟨hpc, hpflags, hirq, hmem, hl1i⟩ := withFetchWord_fields hpg hram nbits w
  generalize s.withFetchWord nbits w = u at *
  have hpgu : u.pg = false := (pg_congr hpflags).trans hpg
  have hfetch := fetchTranslation_of_ram_pg_off hpgu (by rwa [hpc])
  have hpacket := fetchedPacket_of_placeInstr ((lowFour_eq_zero_iff _).1 haligned) hram hmem hl1i
  have honly := placedPacket_only (decode_of_decodeTableWord hrow) (afterFetch u)
  rw [← hpacket, ← hpc] at honly
  rw [step_of_only ((interrupted_eq_false_iff u).2 (.inr hirq)) hfetch honly, afterFetch_pg_off hpgu]

end Sys2Proof.Machine
end

section
/-! PROOFS. A packet that traps: what each lane reports (40_packet_execution.md R115, R117, 60_exceptions.md R233 to
R237; log 17, log 19, log 25). -/

namespace Sys2Proof.Machine

/-! What a lane reports (60_exceptions.md R233). -/

theorem collides_iff {mine others : List Dest} : collides mine others = true ↔ ∃ d, d ∈ mine ∧ d ∈ others := by
  simp [collides]

/-- A destination of slot `k` is one of another slot (40_packet_execution.md R115), as the end of the packet computes
it. -/
def sharesDest (pk : Packet) (s : State) (k : Fin 4) : Bool :=
  match k with
  | 0 => collides (laneAt pk s 0).dests ((laneAt pk s 1).dests ++ (laneAt pk s 2).dests ++ (laneAt pk s 3).dests)
  | 1 => collides (laneAt pk s 1).dests ((laneAt pk s 0).dests ++ (laneAt pk s 2).dests ++ (laneAt pk s 3).dests)
  | 2 => collides (laneAt pk s 2).dests ((laneAt pk s 0).dests ++ (laneAt pk s 1).dests ++ (laneAt pk s 3).dests)
  | 3 => collides (laneAt pk s 3).dests ((laneAt pk s 0).dests ++ (laneAt pk s 1).dests ++ (laneAt pk s 2).dests)

theorem sharesDest_iff {pk : Packet} {s : State} {k : Fin 4} : sharesDest pk s k = true ↔ duplicated pk s k := by
  have of_others {a b c : Fin 4} (hothers : ∀ j, j ≠ k ↔ j = a ∨ j = b ∨ j = c) :
      collides (laneAt pk s k).dests ((laneAt pk s a).dests ++ (laneAt pk s b).dests ++ (laneAt pk s c).dests) = true ↔
        duplicated pk s k := by
    simp only [collides_iff, duplicated, hothers, List.mem_append]
    constructor
    · rintro ⟨d, hd, (ha | hb) | hc⟩
      exacts [⟨a, .inl rfl, d, hd, ha⟩, ⟨b, .inr (.inl rfl), d, hd, hb⟩, ⟨c, .inr (.inr rfl), d, hd, hc⟩]
    · rintro ⟨j, rfl | rfl | rfl, d, hd, hj⟩
      exacts [⟨d, hd, .inl (.inl hj)⟩, ⟨d, hd, .inl (.inr hj)⟩, ⟨d, hd, .inr hj⟩]
  match k with
  | 0 | 1 | 2 | 3 => exact of_others (by decide)

/-- The exception that slot `k` reports. -/
def reportAt (pk : Packet) (s : State) (k : Fin 4) : Option Exn := reported (laneAt pk s k).exn (sharesDest pk s k)

section Report
variable {pk : Packet} {s : State} {k : Fin 4}

/-- What R233 puts before DuplicateDestination is reported whether or not a destination is shared. -/
theorem reportAt_of_beforeDuplicate {e : Exn} (hexn : (laneAt pk s k).exn = some e) (he : e.beforeDuplicate = true) :
    reportAt pk s k = some e := by
  rw [reportAt, hexn, reported, if_pos he]

/-- A shared destination is reported before what R233 puts after DuplicateDestination. -/
theorem reportAt_of_duplicated (hdup : duplicated pk s k)
    (hexn : ∀ e ∈ (laneAt pk s k).exn, e.beforeDuplicate = false) :
    reportAt pk s k = some .duplicateDestination := by
  rw [reportAt, sharesDest_iff.2 hdup]
  cases he : (laneAt pk s k).exn with
  | none => rfl
  | some e => rw [reported, hexn e he]; rfl

/-- Without a shared destination a lane reports its own exception, or none. -/
theorem reportAt_of_not_duplicated (hdup : ¬duplicated pk s k) : reportAt pk s k = (laneAt pk s k).exn := by
  rw [reportAt, Bool.eq_false_iff.2 (mt sharesDest_iff.1 hdup), reported_false]

theorem reportAt_isSome (h : (laneAt pk s k).exn ≠ none ∨ duplicated pk s k) : (reportAt pk s k).isSome = true := by
  rw [reportAt, reported_isSome, Bool.or_eq_true, Option.isSome_iff_ne_none]
  exact h.imp_right sharesDest_iff.2

end Report

/-- Only the two memory exceptions carry an address (60_exceptions.md R237). -/
theorem ea_eq_none_of_laneCode {e : Option Exn} (h5 : laneCode e ≠ 5#32) (h6 : laneCode e ≠ 6#32) :
    e.bind Exn.ea = none := by
  cases e with
  | none => rfl
  | some x =>
    cases x with
    | dataPageFault a => exact absurd rfl h5
    | invalidPhysicalAddress a => exact absurd rfl h6
    | _ => rfl

/-! The trap (60_exceptions.md R234 to R237). -/

/-- The entries that the walks of a packet's slots leave in the TLBs. -/
def packetFills (pk : Packet) (s : State) : List Fill :=
  (laneAt pk s 0).fills ++ (laneAt pk s 1).fills ++ (laneAt pk s 2).fills ++ (laneAt pk s 3).fills

/-- A packet in which some lane reports takes one trap, with every lane's report. -/
theorem runPacket_of_report {pk : Packet} {s : State} (hrefusal : ∀ k, (laneAt pk s k).refusal = none)
    (h : ∃ k, (reportAt pk s k).isSome = true) :
    runPacket pk s = .next (trapLanes (reportAt pk s 0) (reportAt pk s 1) (reportAt pk s 2) (reportAt pk s 3)
      (applyFills (packetFills pk s) s)) := by
  have hany : ((reportAt pk s 0).isSome || (reportAt pk s 1).isSome || (reportAt pk s 2).isSome ||
      (reportAt pk s 3).isSome) = true := by
    obtain ⟨k, hk⟩ := h
    match k with
    | 0 | 1 | 2 | 3 => simp [hk]
  rw [runPacket_eq, finishPacket, firstRefusal, hrefusal, hrefusal, hrefusal, hrefusal]
  exact if_pos hany

theorem errorCode_trapLanes (e : Fin 4 → Option Exn) (s : State) (k : Fin 4) :
    (trapLanes (e 0) (e 1) (e 2) (e 3) s).errorCode k = laneCode (e k) := by
  match k with
  | 0 | 1 | 2 | 3 => rfl

/-- The state after the trap of a packet, in the words of R235 to R237. -/
theorem packet_trapped {pk : Packet} {s : State} (hrefusal : ∀ k, (laneAt pk s k).refusal = none)
    (h : ∃ k, (laneAt pk s k).exn ≠ none ∨ duplicated pk s k) :
    ∃ t, runPacket pk s = .next t ∧ (∀ k, t.errorCode k = laneCode (reportAt pk s k)) ∧
      s.Trapped t t.ec0 t.ec1 t.ec2 t.ec3 (((reportAt pk s 0).bind Exn.ea).getD s.ea0)
        (((reportAt pk s 1).bind Exn.ea).getD s.ea1) ∧
      t.dtlb = (applyFills (packetFills pk s) s).dtlb ∧ t.itlb = (applyFills (packetFills pk s) s).itlb := by
  obtain ⟨k, hk⟩ := h
  exact ⟨_, runPacket_of_report hrefusal ⟨k, reportAt_isSome hk⟩, errorCode_trapLanes (reportAt pk s) _,
    trapEntry_applyFills_trapped .., rfl, rfl⟩

/-- Settles O45: each clause is the case of what its lane reports. -/
theorem packetTraps : Obligations.PacketTraps := by
  intro pk s hrefusal hraises
  obtain ⟨t, hrun, hcode, htrapped, -, -⟩ := packet_trapped hrefusal (exists_or.2 hraises)
  have hea0 := htrapped.ea0
  have hea1 := htrapped.ea1
  have code_of_before {k : Fin 4} {e : Exn} (he : e.beforeDuplicate = true) (hexn : (laneAt pk s k).exn = some e) :
      t.errorCode k = e.code := by
    rw [hcode, reportAt_of_beforeDuplicate hexn he]
    rfl
  have code_of_own {k : Fin 4} (hdup : ¬duplicated pk s k) {e : Option Exn} (hexn : (laneAt pk s k).exn = e) :
      t.errorCode k = laneCode e := by
    rw [hcode, reportAt_of_not_duplicated hdup, hexn]
  refine ⟨t, hrun, { htrapped with ea0 := rfl, ea1 := rfl }, fun k => ⟨code_of_before rfl, code_of_before rfl,
    code_of_before rfl, code_of_before rfl, fun hdup hexn => ?_, fun hdup => ⟨code_of_own hdup, code_of_own hdup,
    fun _ => code_of_own hdup, fun _ => code_of_own hdup⟩⟩, fun ⟨h5, h6⟩ => ?_, fun ⟨h5, h6⟩ => ?_,
    fun a hdup hexn => ?_, fun a hdup hexn => ?_⟩
  · have hafter : ∀ e ∈ (laneAt pk s k).exn, e.beforeDuplicate = false := by
      obtain hexn | hexn | ⟨a, hexn | hexn⟩ := hexn <;> simp [hexn, Exn.beforeDuplicate]
    rw [hcode, reportAt_of_duplicated hdup hafter]
    rfl
  · have hcode0 : t.ec0 = laneCode (reportAt pk s 0) := hcode 0
    rw [hea0, ea_eq_none_of_laneCode (hcode0 ▸ h5) (hcode0 ▸ h6)]
    rfl
  · have hcode1 : t.ec1 = laneCode (reportAt pk s 1) := hcode 1
    rw [hea1, ea_eq_none_of_laneCode (hcode1 ▸ h5) (hcode1 ▸ h6)]
    rfl
  · rw [hea0, reportAt_of_not_duplicated hdup]
    obtain hexn | hexn := hexn <;> rw [hexn] <;> rfl
  · rw [hea1, reportAt_of_not_duplicated hdup]
    obtain hexn | hexn := hexn <;> rw [hexn] <;> rfl

end Sys2Proof.Machine
end

section
/-! PROOFS. What the pending writes of one slot have to do with its destinations and its access (40_packet_execution.md
R112, R114, R115, 20_memory.md R71): the layer on which a packet's commit rests. -/

namespace Sys2Proof.Machine

/-! The parts of the state that a pending write is about. -/

/-- The parts of the state: a slot has at most one pending write to each. -/
inductive WritePart where
  | regs
  | preds
  | ovf
  | memory
  | events
  | link
  | control

/-- The part that a pending write is about; `control` is what a Control instruction alone writes. -/
def Write.part : Write → WritePart
  | .reg _ _ => .regs
  | .pred _ _ => .preds
  | .ovf _ => .ovf
  | .store _ _ _ => .memory
  | .event _ => .events
  | .link _ => .link
  | .cpr _ _ => .control
  | .pc _ => .control
  | .trapReturn => .control
  | .flushData _ => .control
  | .flushInst _ => .control
  | .flushTlb _ _ => .control

/-- The destination that a pending write is for, if it is for one (40_packet_execution.md R115). -/
def Write.dest : Write → Option Dest
  | .reg r _ => some (.reg r)
  | .pred n _ => if n = 3 then none else some (.pred n)
  | .ovf _ => some .ovf
  | .store _ _ _ => none
  | .event _ => none
  | .link _ => none
  | .cpr _ _ => none
  | .pc _ => none
  | .trapReturn => none
  | .flushData _ => none
  | .flushInst _ => none
  | .flushTlb _ _ => none

/-- The part that a destination belongs to. -/
def Dest.part : Dest → WritePart
  | .reg _ => .regs
  | .pred _ => .preds
  | .ovf => .ovf

theorem Write.part_of_dest {w : Write} {d : Dest} (h : d ∈ w.dest) : w.part = d.part := by
  cases w with
  | reg | ovf =>
    obtain rfl := Option.some.inj h
    rfl
  | pred n b =>
    rw [Write.dest] at h
    split at h
    · cases h
    · obtain rfl := Option.some.inj h
      rfl
  | store | event | link | cpr | pc | trapReturn | flushData | flushInst | flushTlb => cases h

/-- A store is of its slot's access, LL's alone sets the link bit and SC's alone clears it. -/
def Write.MatchesAccess (w : Write) (access : Option Access) : Prop :=
  match w with
  | .store pa sz _ => ∃ a, access = some a ∧ a.kind.isStore = true ∧ a.pa = pa ∧ a.size = sz
  | .link true => ∃ a, access = some a ∧ a.kind.isLl = true
  | .link false => ∃ a, access = some a ∧ a.kind = .sc
  | _ => True

/-- The access of a load, and the register that it writes (44_load_store.md R170 to R173). -/
def AccessKind.loads : AccessKind → Option Reg
  | .load rd => some rd
  | .ll rd => some rd
  | .store => none
  | .sc => none

/-- The pending writes of a lane that an instruction of type `ty` contributes in slot `k`: at most one of each part; each
of a destination is of one of the lane's, and each store or link write is of the lane's access; only a Control
instruction writes what is not data; and a load writes its register first. -/
structure Lane.Orderly (l : Lane) (ty : InstrType) (k : Fin 4) (s : State) : Prop where
  once : (l.writes.map Write.part).Nodup
  dest : ∀ w ∈ l.writes, ∀ d ∈ w.dest, d ∈ l.dests
  access : ∀ w ∈ l.writes, w.MatchesAccess l.access
  control : ∀ w ∈ l.writes, w.part = .control → ty = .control
  load : ∀ a ∈ l.access, ∀ rd ∈ a.kind.loads, l.writes.head? = some (.reg rd (loadValue s k a.pa a.size))

section Lanes
variable {ty : InstrType} {k : Fin 4} {s : State}

theorem Lane.orderly_of_silent {l : Lane} (hwrites : l.writes = []) (haccess : l.access = none) : l.Orderly ty k s := by
  constructor <;> simp [hwrites, haccess]

theorem Lane.setReg_orderly {rd : Reg} {v : Word} : (Lane.setReg rd v).Orderly ty k s := by
  constructor <;> simp [Lane.setReg, Write.part, Write.dest, Write.MatchesAccess]

theorem Lane.setPred_orderly {pd : PredReg} {b : Bool} : (Lane.setPred pd b).Orderly ty k s := by
  constructor <;> simp [Lane.setPred, Write.part, Write.dest, Write.MatchesAccess]

theorem Lane.setRegOvf_orderly {rd : Reg} {v o : Word} : (Lane.setRegOvf rd v o).Orderly ty k s := by
  constructor <;> simp [Lane.setRegOvf, Write.part, Write.dest, Write.MatchesAccess]

theorem laneMthi_orderly {rs : Reg} : (laneMthi rs s).Orderly ty k s := by
  constructor <;> simp [laneMthi, Write.part, Write.dest, Write.MatchesAccess]

theorem Lane.branch_orderly {target : Word} : (Lane.branch target).Orderly .control k s := by
  constructor <;> simp [Lane.branch, Write.part, Write.dest, Write.MatchesAccess]

theorem Lane.branchLink_orderly {target : Word} : (Lane.branchLink s target).Orderly .control k s := by
  constructor <;> simp [Lane.branchLink, Write.part, Write.dest, Write.MatchesAccess]

/-- One write of a Control instruction. -/
theorem Lane.orderly_of_control {w : Write} {fs : List Fill} (hw : w.part = .control) :
    Lane.Orderly { writes := [w], fills := fs } .control k s := by
  cases w <;> cases hw <;> constructor <;> simp [Write.dest, Write.MatchesAccess]

theorem Lane.load_orderly {sz : Size} {sets : Bool} {rd : Reg} {ea : Word} :
    (Lane.load s k sz sets rd ea).Orderly ty k s := by
  rcases Lane.load_cases s k sz sets rd ea with ⟨f, -, hl⟩ | ⟨pa, -, hl⟩ <;> rw [hl]
  · exact Lane.orderly_of_silent rfl rfl
  · unfold loadEvents
    cases sets <;> cases isRam pa <;> constructor <;>
      simp [Write.part, Write.dest, Write.MatchesAccess, AccessKind.loads, AccessKind.isLl]

theorem Lane.store_orderly {sz : Size} {m : Bool} {ea v : Word} : (Lane.store s k sz m ea v).Orderly ty k s := by
  cases m with
  | true => exact Lane.orderly_of_silent rfl rfl
  | false =>
    rcases Lane.store_cases s k sz ea v with ⟨f, -, hl⟩ | ⟨pa, -, hl⟩ <;> rw [hl]
    · exact Lane.orderly_of_silent rfl rfl
    · constructor <;> simp [Write.part, Write.dest, Write.MatchesAccess, AccessKind.loads, AccessKind.isStore]

theorem Lane.storeConditional_orderly {m : Bool} {ea v : Word} :
    (Lane.storeConditional s k m ea v).Orderly ty k s := by
  cases m with
  | true => exact Lane.orderly_of_silent rfl rfl
  | false =>
    cases h : (dataTranslation s k .word ea true).result with
    | error f => rw [Lane.storeConditional_of_error h]; exact Lane.orderly_of_silent rfl rfl
    | ok pa =>
      rw [Lane.storeConditional_of_ok h]
      cases s.link <;> constructor <;>
        simp [Write.part, Write.dest, Write.MatchesAccess, AccessKind.loads, AccessKind.isStore]

theorem Lane.flushLine_orderly {which : TlbId} {write : Word → Write} {va : Word} {x : Translation}
    (h : ∀ pa, (write pa).part = .control) : (Lane.flushLine which write va x).Orderly .control k s := by
  unfold Lane.flushLine
  split
  · exact Lane.orderly_of_silent rfl rfl
  · exact Lane.orderly_of_control (h _)

theorem laneFlush_orderly {c : Bool} {fty : FlushType} {rs : Reg} : (laneFlush c fty rs k s).Orderly .control k s := by
  cases c with
  | true => exact Lane.orderly_of_silent rfl rfl
  | false =>
    cases fty with
    | data | inst => exact Lane.flushLine_orderly fun _ => rfl
    | dtlb | itlb => exact Lane.orderly_of_control rfl

theorem Lane.privileged_orderly {l : Lane} (h : l.Orderly ty k s) : (l.privileged s).Orderly ty k s := by
  unfold Lane.privileged
  split
  · exact Lane.orderly_of_silent rfl rfl
  · exact h

theorem laneDiv_orderly {sg : Bool} {rt : Reg} {wide : Bool} {rd rs : Reg} :
    (laneDiv sg rt wide rd rs s).Orderly ty k s := by
  unfold laneDiv
  split
  · exact Lane.orderly_of_silent rfl rfl
  · exact Lane.setRegOvf_orderly

theorem laneMfc_orderly {rd : Reg} {n : CprNum} : (laneMfc rd n s).Orderly ty k s := by
  unfold laneMfc
  split
  · exact Lane.orderly_of_silent rfl rfl
  · exact Lane.privileged_orderly Lane.setReg_orderly

theorem laneMtc_orderly {n : CprNum} {rs : Reg} : (laneMtc n rs s).Orderly .control k s := by
  unfold laneMtc
  split
  · exact Lane.orderly_of_silent rfl rfl
  · exact Lane.privileged_orderly (Lane.orderly_of_control rfl)

end Lanes

/-- Every instruction contributes an orderly lane, in whichever slot it is. -/
theorem issue_orderly (i : Instr) (k : Fin 4) (s : State) : (issue i k s).Orderly i.format.type k s := by
  cases i with
  | addShort | addReg | addLong | andShort | andReg | andLong | norShort | norReg | norLong | orShort | orReg | orLong
  | subShort | subReg | subLong | rsbShort | rsbReg | rsbLong | xorShort | xorReg | xorLong | movShort | movReg
  | movRegsh | movLong | mvnShort | mvnReg | mvnRegsh | mvnLong | sxbShort | sxbReg | sxbRegsh | sxbLong | sxhShort
  | sxhReg | sxhRegsh | sxhLong | mfhi => exact Lane.setReg_orderly
  | cmpltuShort | cmpltuReg | cmpltuLong | cmpleuShort | cmpleuReg | cmpleuLong | cmpeqShort | cmpeqReg | cmpeqLong
  | cmpltsShort | cmpltsReg | cmpltsLong | cmplesShort | cmplesReg | cmplesLong | cmpbsShort | cmpbsReg | cmpbsLong
  | cmpbcShort | cmpbcReg | cmpbcLong => exact Lane.setPred_orderly
  | lb | lh | lw | ll => exact Lane.load_orderly
  | sb | sh | sw => exact Lane.store_orderly
  | sc => exact Lane.storeConditional_orderly
  | bImm | bReg => exact Lane.branch_orderly
  | blImm | blReg => exact Lane.branchLink_orderly
  | brk | syscall | fence => exact Lane.orderly_of_silent rfl rfl
  | eret => exact Lane.privileged_orderly (Lane.orderly_of_control rfl)
  | flush => exact laneFlush_orderly
  | mfc => exact laneMfc_orderly
  | mtc => exact laneMtc_orderly
  | mult => exact Lane.setRegOvf_orderly
  | div => exact laneDiv_orderly
  | mthi => exact laneMthi_orderly

/-! The slots of a packet. -/

section Slots
variable {pk : Packet} {s : State} {k : Fin 4}

/-- A slot writes nothing and accesses nothing, or holds an executing instruction that may be there. -/
theorem laneAt_silent_or_issue (pk : Packet) (s : State) (k : Fin 4) :
    ((laneAt pk s k).writes = [] ∧ (laneAt pk s k).access = none) ∨
      ∃ i, mayOccupy i k = true ∧ laneAt pk s k = issue i k s := by
  cases hslot : slotAt pk k with
  | operand => exact .inl (by rw [laneAt, hslot]; exact ⟨rfl, rfl⟩)
  | undefined p e =>
    left
    rw [laneAt, hslot, slotLane]
    cases hp : s.holds p with
    | true => rw [Lane.gate_of_holds _ _ _ hp]; exact ⟨rfl, rfl⟩
    | false => rw [Lane.gate_of_not_holds _ _ _ hp]; exact ⟨rfl, rfl⟩
  | instr i =>
    rw [laneAt, hslot, slotLane]
    cases hp : s.holds i.pred with
    | false => rw [Lane.gate_of_not_holds _ _ _ hp]; exact .inl ⟨rfl, rfl⟩
    | true =>
      rw [Lane.gate_of_holds _ _ _ hp]
      cases hk : mayOccupy i k with
      | true => exact .inr ⟨i, hk, if_pos rfl⟩
      | false => exact .inl ⟨rfl, rfl⟩

/-- Every slot's lane is orderly, as that of a type that may be in the slot. -/
theorem laneAt_orderly (pk : Packet) (s : State) (k : Fin 4) :
    ∃ ty, (ty = .control → k = 0) ∧ (laneAt pk s k).Orderly ty k s := by
  obtain ⟨hwrites, haccess⟩ | ⟨i, hk, hlane⟩ := laneAt_silent_or_issue pk s k
  · exact ⟨.alu, nofun, Lane.orderly_of_silent hwrites haccess⟩
  · refine ⟨i.format.type, fun hi => ?_, hlane ▸ issue_orderly i k s⟩
    rw [mayOccupy, hi] at hk
    exact Fin.ext (of_decide_eq_true hk)

/-- Only slot 0 writes what is not data (40_packet_execution.md R112). -/
theorem slot_of_control {w : Write} (hw : w ∈ (laneAt pk s k).writes) (hpart : w.part = .control) : k = 0 := by
  obtain ⟨ty, hty, horderly⟩ := laneAt_orderly pk s k
  exact hty (horderly.control w hw hpart)

/-- Only slots 0 and 1 access data memory (40_packet_execution.md R112). -/
theorem slot_of_access {a : Access} (ha : (laneAt pk s k).access = some a) : k.val ≤ 1 := by
  obtain ⟨-, hnone⟩ | ⟨i, hk, hlane⟩ := laneAt_silent_or_issue pk s k
  · cases hnone.symm.trans ha
  · rw [hlane] at ha
    rw [mayOccupy, type_of_issue_access ha] at hk
    exact of_decide_eq_true hk

/-- A slot has at most one pending write to each part. -/
theorem laneAt_write_unique {w w' : Write} (hw : w ∈ (laneAt pk s k).writes) (hw' : w' ∈ (laneAt pk s k).writes)
    (hpart : w.part = w'.part) : w = w' := by
  obtain ⟨ty, -, horderly⟩ := laneAt_orderly pk s k
  exact List.inj_on_of_nodup_map horderly.once hw hw' hpart

theorem laneAt_dest {w : Write} {d : Dest} (hw : w ∈ (laneAt pk s k).writes) (hd : d ∈ w.dest) :
    d ∈ (laneAt pk s k).dests := by
  obtain ⟨ty, -, horderly⟩ := laneAt_orderly pk s k
  exact horderly.dest w hw d hd

theorem laneAt_matchesAccess {w : Write} (hw : w ∈ (laneAt pk s k).writes) :
    w.MatchesAccess (laneAt pk s k).access := by
  obtain ⟨ty, -, horderly⟩ := laneAt_orderly pk s k
  exact horderly.access w hw

/-- The writes of a slot that loads begin with the register of the load. -/
theorem laneAt_load {a : Access} {rd : Reg} (ha : (laneAt pk s k).access = some a) (hrd : a.kind.loads = some rd) :
    (laneAt pk s k).writes = .reg rd (loadValue s k a.pa a.size) :: (laneAt pk s k).writes.drop 1 := by
  obtain ⟨ty, -, horderly⟩ := laneAt_orderly pk s k
  have hhead := horderly.load a ha rd hrd
  cases hwrites : (laneAt pk s k).writes with
  | nil => rw [hwrites] at hhead; cases hhead
  | cons w ws =>
    rw [hwrites] at hhead
    rw [Option.some.inj hhead, List.drop_one, List.tail_cons]

end Slots

end Sys2Proof.Machine
end

section
/-! PROOFS. A packet that commits (40_packet_execution.md R114, R116, R118 step 8): every slot's writes, each computed
from the state before. -/

namespace Sys2Proof.Machine

/-! The writes of the two memory slots (20_memory.md R71; log 18, log 36). -/

theorem SpecConflict.symm {a b : Access} (h : SpecConflict a b) : SpecConflict b a := by
  unfold SpecConflict at *
  tauto

/-- Accesses that do not conflict are of different bytes where one of them is a store. -/
theorem disjoint_of_not_conflict {a b : Access} (h : ¬SpecConflict a b)
    (hstore : a.kind.isStore = true ∨ b.kind.isStore = true) :
    a.pa.toNat + a.size.bytes ≤ b.pa.toNat ∨ b.pa.toNat + b.size.bytes ≤ a.pa.toNat := by
  by_contra hoverlap
  exact h (.inl ⟨by omega, hstore⟩)

/-- A quiet packet whose memory slots do not conflict. -/
structure Peaceful (pk : Packet) (s : State) : Prop where
  quiet : Quiet pk s
  memory : ∀ {j k : Fin 4} {a b : Access}, j ≠ k → (laneAt pk s j).access = some a → (laneAt pk s k).access = some b →
    ¬SpecConflict a b

/-- Only slots 0 and 1 have accesses, so that those two alone can conflict. -/
theorem peaceful_of_memorySlots {pk : Packet} {s : State} (hquiet : Quiet pk s)
    (hmem : ∀ a b, (laneAt pk s 0).access = some a → (laneAt pk s 1).access = some b → ¬SpecConflict a b) :
    Peaceful pk s := by
  refine ⟨hquiet, fun {j k a b} hjk ha hb => ?_⟩
  have hj := slot_of_access ha
  have hk := slot_of_access hb
  match j, k with
  | 0, 0 | 1, 1 => exact absurd rfl hjk
  | 0, 1 => exact hmem a b ha hb
  | 1, 0 => exact fun h => hmem b a hb ha h.symm

/-- Stores elsewhere leave the bytes of an access as they were. -/
theorem read_storesInto {ws : List Write} {x : Nat}
    (h : ∀ pa sz v, .store pa sz v ∈ ws → x < pa.toNat ∨ pa.toNat + sz.bytes ≤ x) (m : Memory) :
    (storesInto m ws).read x = m.read x := by
  induction ws generalizing m with
  | nil => rfl
  | cons w ws ih =>
    have htail (m' : Memory) : (storesInto m' ws).read x = m'.read x :=
      ih (fun pa sz v hw => h pa sz v (List.mem_cons_of_mem _ hw)) m'
    cases w with
    | store pa sz v =>
      refine (htail _).trans ?_
      dsimp only
      split
      · exact Memory.read_writeSized_outside m _ sz v x (h pa sz v List.mem_cons_self)
      · rfl
    | _ => exact htail m

section Writes
variable {pk : Packet} {s : State}

/-- A load beside a store that it does not conflict with reads what it would read before it. -/
theorem Peaceful.loadValue_eq (h : Peaceful pk s) {j k : Fin 4} (hjk : j ≠ k) {a : Access}
    (ha : (laneAt pk s k).access = some a) :
    loadValue { s with mem := storesInto s.mem (laneAt pk s j).writes } k a.pa a.size = loadValue s k a.pa a.size := by
  have hread : (storesInto s.mem (laneAt pk s j).writes).readSized a.pa.toNat a.size =
      s.mem.readSized a.pa.toNat a.size := by
    refine readSized_congr fun i hi => read_storesInto (fun pa sz v hw => ?_) s.mem
    obtain ⟨b, hb, hstore, rfl, rfl⟩ := laneAt_matchesAccess hw
    have hdisjoint := disjoint_of_not_conflict (h.memory hjk hb ha) (.inl hstore)
    omega
  rw [loadValue, loadValue, hread]

/-- Where the memory slots do not conflict their order does not matter (20_memory.md R71). -/
theorem Peaceful.writesAfter_eq (h : Peaceful pk s) {j k : Fin 4} (hjk : j ≠ k) :
    (laneAt pk s k).writesAfter (laneAt pk s j).writes k s = (laneAt pk s k).writes := by
  unfold Lane.writesAfter
  split
  · next rd pa sz ha => rw [h.loadValue_eq hjk ha, ← laneAt_load ha rfl]
  · next rd pa sz ha => rw [h.loadValue_eq hjk ha, ← laneAt_load ha rfl]
  · rfl
  · rfl
  · rfl

/-- The memory slots commit their own writes. -/
theorem Peaceful.memoryWrites_eq (h : Peaceful pk s) :
    ∃ ws, memoryWrites (laneAt pk s 0) (laneAt pk s 1) s = some ws ∧
      ∀ w, w ∈ ws ↔ w ∈ (laneAt pk s 0).writes ∨ w ∈ (laneAt pk s 1).writes := by
  cases hws : memoryWrites (laneAt pk s 0) (laneAt pk s 1) s with
  | none =>
    obtain ⟨a, b, ha, hb, hconflict⟩ := accessConflict_cases ((memoryWrites_eq_none ..).1 hws).2
    exact absurd hconflict (h.memory (by decide) ha hb)
  | some ws =>
    refine ⟨ws, rfl, fun w => ?_⟩
    obtain rfl | ⟨-, rfl⟩ | ⟨-, rfl⟩ := memoryWrites_cases hws
    · exact List.mem_append
    · rw [h.writesAfter_eq (j := 0) (by decide), List.mem_append]
    · rw [h.writesAfter_eq (j := 1) (by decide), List.mem_append, or_comm]

/-- The writes of a packet's slots, in some order. -/
def PacketWrites (pk : Packet) (s : State) (ws : List Write) : Prop :=
  ∀ w, w ∈ ws ↔ ∃ k, w ∈ (laneAt pk s k).writes

/-- A peaceful packet commits the writes of its slots and no others. -/
theorem Peaceful.commits (h : Peaceful pk s) :
    ∃ ws, runPacket pk s = .next (commit ws (applyFills (packetFills pk s) s)) ∧ PacketWrites pk s ws := by
  obtain ⟨ws, hws, hmem⟩ := h.memoryWrites_eq
  refine ⟨ws ++ (laneAt pk s 2).writes ++ (laneAt pk s 3).writes, ?_, fun w => ?_⟩
  · rw [h.quiet.runPacket_eq, hws, Option.elim_some, packetFills]
  · rw [List.mem_append, List.mem_append, hmem]
    constructor
    · rintro (((h0 | h1) | h2) | h3)
      exacts [⟨0, h0⟩, ⟨1, h1⟩, ⟨2, h2⟩, ⟨3, h3⟩]
    · rintro ⟨k, hk⟩
      match k, hk with
      | 0, h0 => exact .inl (.inl (.inl h0))
      | 1, h1 => exact .inl (.inl (.inr h1))
      | 2, h2 => exact .inl (.inr h2)
      | 3, h3 => exact .inr h3

/-- Two slots do not write the same destination (40_packet_execution.md R115). -/
theorem Quiet.write_unique (h : Quiet pk s) {j k : Fin 4} {w w' : Write} {d : Dest} (hw : w ∈ (laneAt pk s j).writes)
    (hw' : w' ∈ (laneAt pk s k).writes) (hd : d ∈ w.dest) (hd' : d ∈ w'.dest) : w = w' := by
  by_cases hjk : j = k
  · subst hjk
    exact laneAt_write_unique hw hw' ((Write.part_of_dest hd).trans (Write.part_of_dest hd').symm)
  · exact absurd ⟨k, Ne.symm hjk, d, laneAt_dest hw hd, laneAt_dest hw' hd'⟩ (h.dests j)

end Writes

/-! What a pending write does to each part of the state, and what it leaves. -/

section Apply
variable {u : State} {w : Write}

theorem Write.apply_readReg {r : Reg} (h : ∀ v, w ≠ .reg r v) : (w.apply u).readReg r = u.readReg r := by
  cases w with
  | reg q v => exact readReg_writeReg_ne u v fun hq => h v (by rw [hq])
  | pred n b => exact readReg_writePred ..
  | cpr c v => exact readReg_congr (writeCpr_regs ..) r
  | store pa sz v => exact readReg_congr (commitStore_regs ..) r
  | flushTlb which vpage => exact readReg_congr (flushTlbPage_regs ..) r
  | ovf | event | link | pc | trapReturn | flushData | flushInst => rfl

theorem Write.apply_readPred {n : PredReg} (h : ∀ b, w ≠ .pred n b) : (w.apply u).readPred n = u.readPred n := by
  cases w with
  | pred m b =>
    have hne : n ≠ m := fun hn => h b (by rw [hn])
    exact (readPred_writePred u m n b).trans (by simp [hne])
  | cpr c v => exact writeCpr_keepsPreds u c v n
  | store pa sz v => rcases commitStore_cases u pa sz v with ⟨-, he⟩ | ⟨-, he⟩ <;> rw [Write.apply, he] <;> rfl
  | flushTlb which vpage => cases which <;> rfl
  | reg | ovf | event | link | pc | trapReturn | flushData | flushInst => rfl

theorem Write.apply_ovf (h : ∀ v, w ≠ .ovf v) : (w.apply u).ovf = u.ovf := by
  cases w with
  | ovf v => exact absurd rfl (h v)
  | pred n b => exact writePred_ovf ..
  | cpr c v => exact writeCpr_ovf ..
  | store pa sz v => exact commitStore_ovf ..
  | flushTlb which vpage => exact flushTlbPage_ovf ..
  | reg | event | link | pc | trapReturn | flushData | flushInst => rfl

theorem Write.apply_link_of_ne (h : ∀ b, w ≠ .link b) (hreturn : w ≠ .trapReturn) : (w.apply u).link = u.link := by
  cases w with
  | link b => exact absurd rfl (h b)
  | trapReturn => exact absurd rfl hreturn
  | pred n b => exact writePred_link ..
  | cpr c v => exact writeCpr_link ..
  | store pa sz v => exact commitStore_link ..
  | flushTlb which vpage => exact flushTlbPage_link ..
  | reg | ovf | event | pc | flushData | flushInst => rfl

theorem Write.apply_mode (hreturn : w ≠ .trapReturn) : (w.apply u).mode = u.mode := by
  by_cases hcpr : ∃ c v, w = .cpr c v
  · obtain ⟨c, v, rfl⟩ := hcpr
    exact writeCpr_mode ..
  · exact (Write.apply_keepsControl (fun c v he => hcpr ⟨c, v, he⟩) hreturn u).1

theorem Write.apply_readCpr_of_ne {c : Cpr} (h : ∀ v, w ≠ .cpr c v) (hreturn : w ≠ .trapReturn) :
    (w.apply u).readCpr c = u.readCpr c := by
  by_cases hcpr : ∃ d v, w = .cpr d v
  · obtain ⟨d, v, rfl⟩ := hcpr
    have hne : c ≠ d := fun hc => h v (by rw [hc])
    exact (readCpr_writeCpr u d c v).trans (if_neg hne)
  · exact (Write.apply_keepsControl (fun d v he => hcpr ⟨d, v, he⟩) hreturn u).2.2 c

/-- Only a store to RAM changes a byte of it, and only one of its own. -/
theorem Write.apply_read {a : Nat}
    (h : ∀ pa sz v, w = .store pa sz v → isRam pa = true → a < pa.toNat ∨ pa.toNat + sz.bytes ≤ a) :
    (w.apply u).mem.read a = u.mem.read a := by
  cases w with
  | store pa sz v =>
    rcases commitStore_cases u pa sz v with ⟨hram, he⟩ | ⟨-, he⟩ <;> rw [Write.apply, he]
    · exact Memory.read_writeSized_outside _ _ _ _ _ (h pa sz v rfl hram)
    · rfl
  | pred n b => exact congrArg (Memory.read · a) (writePred_mem ..)
  | cpr c v => exact congrArg (Memory.read · a) (writeCpr_mem ..)
  | flushTlb which vpage => cases which <;> rfl
  | reg | ovf | event | link | pc | trapReturn | flushData | flushInst => rfl

/-- Only what a Control instruction writes changes pc or EPC. -/
theorem Write.apply_pc_epc (h : w.part ≠ .control) : (w.apply u).pc = u.pc ∧ (w.apply u).epc = u.epc := by
  cases w with
  | pred n b => exact ⟨writePred_pc .., writePred_epc ..⟩
  | store pa sz v => exact ⟨commitStore_pc .., commitStore_epc ..⟩
  | reg | ovf | event | link => exact ⟨rfl, rfl⟩
  | cpr | pc | trapReturn | flushData | flushInst | flushTlb => exact absurd rfl h

theorem Write.apply_pc (h : ∀ target, w ≠ .pc target) (hreturn : w ≠ .trapReturn) : (w.apply u).pc = u.pc := by
  cases w with
  | pc target => exact absurd rfl (h target)
  | trapReturn => exact absurd rfl hreturn
  | pred n b => exact writePred_pc ..
  | cpr c v => exact writeCpr_pc ..
  | store pa sz v => exact commitStore_pc ..
  | flushTlb which vpage => exact flushTlbPage_pc ..
  | reg | ovf | event | link | flushData | flushInst => rfl

theorem Write.apply_keepsEnvironment (w : Write) (u : State) : u.keepsEnvironment (w.apply u) := by
  refine ⟨?_, ?_, Write.apply_params u w⟩
  · cases w with
    | pred n b => exact writePred_irq ..
    | cpr c v => exact writeCpr_irq ..
    | store pa sz v => exact commitStore_irq ..
    | flushTlb which vpage => exact flushTlbPage_irq ..
    | reg | ovf | event | link | pc | trapReturn | flushData | flushInst => rfl
  · cases w with
    | pred n b => exact writePred_tick ..
    | cpr c v => exact writeCpr_tick ..
    | store pa sz v => exact commitStore_tick ..
    | flushTlb which vpage => exact flushTlbPage_tick ..
    | reg | ovf | event | link | pc | trapReturn | flushData | flushInst => rfl

end Apply

/-! What a commit does to one part of the state. -/

section Commit
variable {α : Type} {f : State → α} {ws : List Write} {s : State}

/-- A part that no pending write changes is as before. -/
theorem commit_unset (hnext : f { s with pc := s.pc + 16#32 } = f s) (hws : ∀ w ∈ ws, ∀ u, f (w.apply u) = f u)
    (hlink : linkClash ws = true → ∀ (u : State) (b : Bool), f { u with link := b } = f u) : f (commit ws s) = f s :=
  commit_keeps (P := fun u => f u = f s) hnext (fun w hw u hu => (hws w hw u).trans hu)
    fun hclash u b hu => (hlink hclash u b).trans hu

/-- A part that one pending write sets to `x`, from every state that the writes pass through (`Q`), and no other changes
is `x`. -/
theorem commit_sets_from {Q : State → Prop} {x : α} {w : Write} (hw : w ∈ ws) (hnext : Q { s with pc := s.pc + 16#32 })
    (hQ : ∀ w' ∈ ws, ∀ u, Q u → Q (w'.apply u)) (hset : ∀ u, Q u → f (w.apply u) = x)
    (hothers : ∀ w' ∈ ws, w' ≠ w → ∀ u, f (w'.apply u) = f u)
    (hlink : linkClash ws = true → ∀ (u : State) (b : Bool), f { u with link := b } = f u) : f (commit ws s) = x := by
  obtain ⟨before, after, rfl⟩ := List.append_of_mem hw
  have hbefore : Q (before.foldl Write.apply { s with pc := s.pc + 16#32 }) :=
    List.foldlRecOn (motive := Q) before Write.apply hnext fun u hu w' hw' => hQ w' (List.mem_append_left _ hw') u hu
  have hkept : ∀ w' ∈ before ++ w :: after, ∀ u, Q u ∧ f u = x → Q (w'.apply u) ∧ f (w'.apply u) = x := by
    rintro w' hw' u ⟨hu, hx⟩
    refine ⟨hQ w' hw' u hu, ?_⟩
    by_cases hne : w' = w
    · exact hne ▸ hset u hu
    · exact (hothers w' hw' hne u).trans hx
  have hwritten : f ((before ++ w :: after).foldl Write.apply { s with pc := s.pc + 16#32 }) = x := by
    rw [List.foldl_append, List.foldl_cons]
    exact (List.foldlRecOn (motive := fun u => Q u ∧ f u = x) after Write.apply
      ⟨hQ w hw _ hbefore, hset _ hbefore⟩ fun u hu w' hw' =>
        hkept w' (List.mem_append_right _ (List.mem_cons_of_mem _ hw')) u hu).2
  unfold commit
  split
  · next hclash => exact (hlink hclash ..).trans hwritten
  · exact hwritten

/-- A part that one pending write sets to `x` and no other changes is `x`. -/
theorem commit_sets {x : α} {w : Write} (hw : w ∈ ws) (hset : ∀ u, f (w.apply u) = x)
    (hothers : ∀ w' ∈ ws, w' ≠ w → ∀ u, f (w'.apply u) = f u)
    (hlink : linkClash ws = true → ∀ (u : State) (b : Bool), f { u with link := b } = f u) : f (commit ws s) = x :=
  commit_sets_from (Q := fun _ => True) hw trivial (fun _ _ _ _ => trivial) (fun u _ => hset u) hothers hlink

end Commit

/-! The commit of a packet, part by part. -/

section Parts
variable {pk : Packet} {s u : State} {ws : List Write} {k : Fin 4}

theorem PacketWrites.mem (hws : PacketWrites pk s ws) {w : Write} (hw : w ∈ (laneAt pk s k).writes) : w ∈ ws :=
  (hws w).2 ⟨k, hw⟩

/-- What no slot writes is not among the writes. -/
theorem PacketWrites.ne (hws : PacketWrites pk s ws) {w w' : Write} (hw : ∀ k, w ∉ (laneAt pk s k).writes)
    (hw' : w' ∈ ws) : w' ≠ w := by
  rintro rfl
  obtain ⟨k, hk⟩ := (hws w').1 hw'
  exact hw k hk

/-- What is not data is written by slot 0 alone. -/
theorem PacketWrites.mem_slot0 (hws : PacketWrites pk s ws) {w : Write} (hw : w ∈ ws) (hpart : w.part = .control) :
    w ∈ (laneAt pk s 0).writes := by
  obtain ⟨k, hk⟩ := (hws w).1 hw
  exact slot_of_control hk hpart ▸ hk

/-- Beside a write of slot 0 that is not data there is no other. -/
theorem PacketWrites.part_ne_control (hws : PacketWrites pk s ws) {w w' : Write} (hw : w ∈ (laneAt pk s 0).writes)
    (hpart : w.part = .control) (hw' : w' ∈ ws) (hne : w' ≠ w) : w'.part ≠ .control := fun hpart' =>
  hne (laneAt_write_unique (hws.mem_slot0 hw' hpart') hw (hpart'.trans hpart.symm))

/-- A return from a trap is slot 0's. -/
theorem PacketWrites.ne_trapReturn (hws : PacketWrites pk s ws) (h : .trapReturn ∉ (laneAt pk s 0).writes) {w : Write}
    (hw : w ∈ ws) : w ≠ .trapReturn := by
  rintro rfl
  exact h (hws.mem_slot0 hw rfl)

theorem PacketWrites.no_clash (hws : PacketWrites pk s ws) (h : .trapReturn ∉ (laneAt pk s 0).writes) :
    linkClash ws = false :=
  linkClash_of_no_return fun hmem => hws.ne_trapReturn h hmem rfl

/-- The one write of a destination among a quiet packet's writes. -/
theorem PacketWrites.eq_of_dest (hws : PacketWrites pk s ws) (h : Quiet pk s) {w w' : Write} {d : Dest}
    (hw : w ∈ (laneAt pk s k).writes) (hw' : w' ∈ ws) (hd : d ∈ w.dest) (hd' : d ∈ w'.dest) : w' = w := by
  obtain ⟨j, hj⟩ := (hws w').1 hw'
  exact h.write_unique hj hw hd' hd

theorem commit_readReg (hws : PacketWrites pk s ws) (h : Quiet pk s) {r : Reg} {v : Word}
    (hw : .reg r v ∈ (laneAt pk s k).writes) : (commit ws u).readReg r = v :=
  commit_sets (f := fun u => u.readReg r) (hws.mem hw) (fun u => readReg_writeReg_self u r v)
    (fun _ hw' hne _ => Write.apply_readReg fun _ he =>
      hne (hws.eq_of_dest h (d := .reg r) hw hw' rfl (he ▸ rfl))) fun _ _ _ => rfl

theorem commit_readReg_unset (hws : PacketWrites pk s ws) {r : Reg} (h : ∀ k v, .reg r v ∉ (laneAt pk s k).writes) :
    (commit ws u).readReg r = u.readReg r :=
  commit_unset (f := fun u => u.readReg r) rfl
    (fun _ hw _ => Write.apply_readReg fun v => hws.ne (fun k => h k v) hw) fun _ _ _ => rfl

theorem commit_readPred (hws : PacketWrites pk s ws) (h : Quiet pk s) {n : PredReg} {b : Bool} (hn : n ≠ 3)
    (hw : .pred n b ∈ (laneAt pk s k).writes) : (commit ws u).readPred n = b :=
  commit_sets (f := fun u => u.readPred n) (hws.mem hw)
    (fun u => (readPred_writePred u n n b).trans (by simp [hn]))
    (fun _ hw' hne _ => Write.apply_readPred fun _ he =>
      hne (hws.eq_of_dest h (d := .pred n) hw hw' (by simp [Write.dest, hn]) (by simp [he, Write.dest, hn])))
    fun _ _ _ => rfl

theorem commit_readPred_unset (hws : PacketWrites pk s ws) {n : PredReg}
    (h : ∀ k b, .pred n b ∉ (laneAt pk s k).writes) : (commit ws u).readPred n = u.readPred n :=
  commit_unset (f := fun u => u.readPred n) rfl
    (fun _ hw _ => Write.apply_readPred fun b => hws.ne (fun k => h k b) hw) fun _ _ _ => rfl

theorem commit_ovf (hws : PacketWrites pk s ws) (h : Quiet pk s) {v : Word}
    (hw : .ovf v ∈ (laneAt pk s k).writes) : (commit ws u).ovf = v :=
  commit_sets (f := State.ovf) (hws.mem hw) (fun _ => rfl)
    (fun _ hw' hne _ => Write.apply_ovf fun _ he =>
      hne (hws.eq_of_dest h (d := .ovf) hw hw' rfl (he ▸ rfl))) fun _ _ _ => rfl

theorem commit_ovf_unset (hws : PacketWrites pk s ws) (h : ∀ k v, .ovf v ∉ (laneAt pk s k).writes) :
    (commit ws u).ovf = u.ovf :=
  commit_unset (f := State.ovf) rfl (fun _ hw _ => Write.apply_ovf fun v => hws.ne (fun k => h k v) hw)
    fun _ _ _ => rfl

/-- LL and SC conflict, so that all writes of the link bit agree (20_memory.md R71). -/
theorem Peaceful.link_unique (h : Peaceful pk s) {j : Fin 4} {b b' : Bool} (hw : .link b ∈ (laneAt pk s k).writes)
    (hw' : .link b' ∈ (laneAt pk s j).writes) : b = b' := by
  by_cases hjk : j = k
  · subst hjk
    exact Write.link.inj (laneAt_write_unique hw hw' rfl)
  · have ha := laneAt_matchesAccess hw
    have ha' := laneAt_matchesAccess hw'
    match b, b', ha, ha' with
    | true, true, _, _ | false, false, _, _ => rfl
    | true, false, ⟨a, ha, hll⟩, ⟨a', ha', hsc⟩ =>
      exact absurd (.inr (.inl ⟨hll, hsc⟩)) (h.memory (Ne.symm hjk) ha ha')
    | false, true, ⟨a, ha, hsc⟩, ⟨a', ha', hll⟩ =>
      exact absurd (.inr (.inl ⟨hll, hsc⟩)) (h.memory hjk ha' ha)

theorem commit_link_set (hws : PacketWrites pk s ws) (h : Peaceful pk s) {b : Bool}
    (hreturn : .trapReturn ∉ (laneAt pk s 0).writes) (hw : .link b ∈ (laneAt pk s k).writes) :
    (commit ws u).link = b := by
  refine commit_sets (f := State.link) (hws.mem hw) (fun _ => rfl) (fun w' hw' hne _ => ?_)
    fun hclash => absurd ((hws.no_clash hreturn).symm.trans hclash) nofun
  refine Write.apply_link_of_ne (fun b' he => ?_) (hws.ne_trapReturn hreturn hw')
  subst he
  obtain ⟨j, hj⟩ := (hws _).1 hw'
  exact hne (congrArg Write.link (h.link_unique hj hw))

theorem commit_link_unset (hws : PacketWrites pk s ws) (hreturn : .trapReturn ∉ (laneAt pk s 0).writes)
    (h : ∀ k b, .link b ∉ (laneAt pk s k).writes) : (commit ws u).link = u.link :=
  commit_unset (f := State.link) rfl
    (fun _ hw _ => Write.apply_link_of_ne (fun b => hws.ne (fun k => h k b) hw) (hws.ne_trapReturn hreturn hw))
    fun hclash => absurd ((hws.no_clash hreturn).symm.trans hclash) nofun

theorem commit_readCpr_set (hws : PacketWrites pk s ws) {c : Cpr} {v : Word}
    (hw : .cpr c v ∈ (laneAt pk s 0).writes) : (commit ws u).readCpr c = if c = .pflags then v &&& 3#32 else v :=
  commit_sets (f := fun u => u.readCpr c) (hws.mem hw)
    (fun u => (readCpr_writeCpr u c c v).trans (if_pos rfl))
    (fun _ hw' hne _ => Write.apply_readCpr_of_ne
      (fun _ he => hws.part_ne_control hw rfl hw' hne (he ▸ rfl))
      (fun he => hws.part_ne_control hw rfl hw' hne (he ▸ rfl))) fun _ _ _ => by cases c <;> rfl

theorem commit_mode_unset (hws : PacketWrites pk s ws) (hreturn : .trapReturn ∉ (laneAt pk s 0).writes) :
    (commit ws u).mode = u.mode :=
  commit_unset (f := State.mode) rfl (fun _ hw _ => Write.apply_mode (hws.ne_trapReturn hreturn hw)) fun _ _ _ => rfl

theorem commit_readCpr_unset (hws : PacketWrites pk s ws) (hreturn : .trapReturn ∉ (laneAt pk s 0).writes) {c : Cpr}
    (h : ∀ v, .cpr c v ∉ (laneAt pk s 0).writes) : (commit ws u).readCpr c = u.readCpr c :=
  commit_unset (f := fun u => u.readCpr c) (by cases c <;> rfl)
    (fun _ hw _ => Write.apply_readCpr_of_ne (fun v he => h v (he ▸ hws.mem_slot0 hw (he ▸ rfl)))
      (hws.ne_trapReturn hreturn hw)) fun _ _ _ => by cases c <;> rfl

/-- Stores of a peaceful packet do not overlap. -/
theorem Peaceful.stores_disjoint (h : Peaceful pk s) {j : Fin 4} {pa pb : Word} {sz sz' : Size} {v v' : Word}
    (hw : .store pa sz v ∈ (laneAt pk s k).writes) (hw' : .store pb sz' v' ∈ (laneAt pk s j).writes) :
    Write.store pb sz' v' = .store pa sz v ∨ pa.toNat + sz.bytes ≤ pb.toNat ∨ pb.toNat + sz'.bytes ≤ pa.toNat := by
  by_cases hjk : j = k
  · subst hjk
    exact .inl (laneAt_write_unique hw' hw rfl)
  · obtain ⟨a, ha, hstore, rfl, rfl⟩ := laneAt_matchesAccess hw
    obtain ⟨b, hb, -, rfl, rfl⟩ := laneAt_matchesAccess hw'
    exact .inr (disjoint_of_not_conflict (h.memory (Ne.symm hjk) ha hb) (.inl hstore))

theorem commit_read_stored (hws : PacketWrites pk s ws) (h : Peaceful pk s) {pa : Word} {sz : Size} {v : Word} {j : Nat}
    (hw : .store pa sz v ∈ (laneAt pk s k).writes) (hram : isRam pa = true) (hj : j < sz.bytes) :
    (commit ws u).mem.read (pa.toNat + j) = v.extractLsb' (8 * j) 8 := by
  refine commit_sets (f := fun u => u.mem.read (pa.toNat + j)) (hws.mem hw) (fun u => ?_) (fun w' hw' hne _ => ?_)
    fun _ _ _ => rfl
  · rw [Write.apply, commitStore_of_isRam hram]
    exact read_writeSized_inside u.mem pa.toNat sz v hj
  · refine Write.apply_read fun pb sz' v' he _ => ?_
    subst he
    obtain ⟨i, hi⟩ := (hws _).1 hw'
    have hdisjoint := (h.stores_disjoint hw hi).resolve_left hne
    omega

theorem commit_read_unset (hws : PacketWrites pk s ws) {a : Nat}
    (h : ∀ k pa sz v, .store pa sz v ∈ (laneAt pk s k).writes → isRam pa = true →
      a < pa.toNat ∨ pa.toNat + sz.bytes ≤ a) : (commit ws u).mem.read a = u.mem.read a :=
  commit_unset (f := fun u => u.mem.read a) rfl (fun _ hw _ => Write.apply_read fun pa sz v he => by
    obtain ⟨k, hk⟩ := (hws _).1 hw
    exact h k pa sz v (he ▸ hk)) fun _ _ _ => rfl

theorem commit_pc_set (hws : PacketWrites pk s ws) {target : Word} (hw : .pc target ∈ (laneAt pk s 0).writes) :
    (commit ws u).pc = target :=
  commit_sets (f := State.pc) (hws.mem hw) (fun _ => rfl)
    (fun _ hw' hne _ => (Write.apply_pc_epc (hws.part_ne_control hw rfl hw' hne)).1) fun _ _ _ => rfl

/-- A return from a trap goes to EPC's address of before the packet: no other slot writes EPC. -/
theorem commit_pc_trapReturn (hws : PacketWrites pk s ws) (hw : .trapReturn ∈ (laneAt pk s 0).writes) :
    (commit ws u).pc = packetAddr u.epc := by
  refine commit_sets_from (f := State.pc) (Q := fun u' => u'.epc = u.epc) (hws.mem hw) rfl (fun w' hw' u' hu' => ?_)
    (fun u' hu' => congrArg packetAddr hu')
    (fun _ hw' hne _ => (Write.apply_pc_epc (hws.part_ne_control hw rfl hw' hne)).1) fun _ _ _ => rfl
  by_cases hne : w' = .trapReturn
  · subst hne
    exact hu'
  · exact (Write.apply_pc_epc (hws.part_ne_control hw rfl hw' hne)).2.trans hu'

theorem commit_pc_unset (hws : PacketWrites pk s ws) (hreturn : .trapReturn ∉ (laneAt pk s 0).writes)
    (h : ∀ target, .pc target ∉ (laneAt pk s 0).writes) : (commit ws u).pc = u.pc + 16#32 :=
  commit_keeps (P := fun u' => u'.pc = u.pc + 16#32) rfl
    (fun _ hw _ hu' => (Write.apply_pc (fun target he => h target (he ▸ hws.mem_slot0 hw (he ▸ rfl)))
      (hws.ne_trapReturn hreturn hw)).trans hu') fun _ _ _ hu' => hu'

end Parts

theorem commit_keepsEnvironment (ws : List Write) (s : State) : s.keepsEnvironment (commit ws s) :=
  commit_keeps (P := s.keepsEnvironment) ⟨rfl, rfl, rfl⟩ (fun w _ u hu => by
    obtain ⟨hirq, htick, hparams⟩ := hu
    obtain ⟨hirq', htick', hparams'⟩ := w.apply_keepsEnvironment u
    exact ⟨hirq'.trans hirq, htick'.trans htick, hparams'.trans hparams⟩) fun _ _ _ hu => hu

end Sys2Proof.Machine
end

section
/-! PROOFS. Packets that commit or share destinations (40_packet_execution.md R114 to R116, 60_exceptions.md R224;
log 17): any packet, four ADDs, and two. -/

namespace Sys2Proof.Machine

/-! Packets that write registers only. -/

/-- A lane that raises nothing and writes registers alone. -/
structure Lane.RegsOnly (l : Lane) : Prop where
  exn : l.exn = none
  refusal : l.refusal = none
  access : l.access = none
  fills : l.fills = []
  writes : ∀ w ∈ l.writes, ∃ r v, w = .reg r v

theorem Lane.idle_regsOnly : Lane.idle.RegsOnly := ⟨rfl, rfl, rfl, rfl, nofun⟩

theorem Lane.setReg_regsOnly (rd : Reg) (v : Word) : (Lane.setReg rd v).RegsOnly :=
  ⟨rfl, rfl, rfl, rfl, fun _ hw => ⟨rd, v, List.mem_singleton.1 hw⟩⟩

theorem Lane.RegsOnly.gate {l : Lane} (h : l.RegsOnly) (p : Pred) (s : State) : (l.gate p s).RegsOnly := by
  cases hp : s.holds p with
  | true => rwa [Lane.gate_of_holds _ _ _ hp]
  | false => rw [Lane.gate_of_not_holds _ _ _ hp]; exact ⟨rfl, rfl, rfl, rfl, nofun⟩

/-- Register writes change nothing but registers. -/
theorem commit_of_regs {ws : List Write} (h : ∀ w ∈ ws, ∃ r v, w = .reg r v) (s : State) :
    ∃ regs, commit ws s = { s with pc := s.pc + 16#32, regs := regs } := by
  refine commit_keeps (P := fun u => ∃ regs, u = { s with pc := s.pc + 16#32, regs := regs }) ⟨s.regs, rfl⟩
    (fun w hw u hu => ?_) fun hclash => ?_
  · obtain ⟨r, v, rfl⟩ := h w hw
    obtain ⟨regs, rfl⟩ := hu
    exact ⟨_, rfl⟩
  · have hno : Write.trapReturn ∉ ws := fun hmem => by
      obtain ⟨r, v, he⟩ := h _ hmem
      cases he
    exact absurd ((linkClash_of_no_return hno).symm.trans hclash) nofun

/-- Only general registers and pc have changed. -/
structure State.OnlyRegs (s t : State) : Prop where
  preds : s.keepsPreds t
  ovf : t.ovf = s.ovf
  link : t.link = s.link
  memory : s.keepsMemory t
  tlbs : s.keepsTlbs t
  rest : s.Advanced t

theorem onlyRegs_with_regs (s : State) (regs : Vector Word 32) :
    s.OnlyRegs { s with pc := s.pc + 16#32, regs := regs } :=
  ⟨fun _ => rfl, rfl, rfl, keepsMemory_refl s, ⟨rfl, rfl⟩, ⟨rfl, ⟨rfl, rfl, fun _ => rfl⟩, rfl, rfl, rfl⟩⟩

section RegsOnly
variable {pk : Packet} {s : State}

/-- A packet that writes registers only, each once, commits them all. -/
theorem runPacket_of_regsOnly (h : ∀ k, (laneAt pk s k).RegsOnly) (hdests : ∀ k, ¬duplicated pk s k) :
    ∃ t, runPacket pk s = .next t ∧ (∀ k r v, .reg r v ∈ (laneAt pk s k).writes → t.readReg r = v) ∧
      (∀ r, (∀ k v, .reg r v ∉ (laneAt pk s k).writes) → t.readReg r = s.readReg r) ∧ s.OnlyRegs t := by
  have hquiet : Quiet pk s := ⟨fun k => (h k).exn, fun k => (h k).refusal, hdests⟩
  have hpeaceful : Peaceful pk s := peaceful_of_memorySlots hquiet fun a _ ha => by cases (h 0).access.symm.trans ha
  obtain ⟨ws, hrun, hws⟩ := hpeaceful.commits
  have hfills : packetFills pk s = [] := by simp [packetFills, (h _).fills]
  have hregs : ∀ w ∈ ws, ∃ r v, w = .reg r v := fun w hw => by
    obtain ⟨k, hk⟩ := (hws w).1 hw
    exact (h k).writes w hk
  obtain ⟨regs, hcommit⟩ := commit_of_regs hregs s
  rw [hfills] at hrun
  refine ⟨commit ws s, hrun, fun k r v hw => commit_readReg hws hquiet hw, fun r hr => commit_readReg_unset hws hr, ?_⟩
  rw [hcommit]
  exact onlyRegs_with_regs s regs

end RegsOnly

/-! ADDs. -/

/-- The lane of an ADD in any slot: its one register, if it executes. -/
theorem laneAt_add {pk : Packet} {k : Fin 4} {p : Pred} {c : BitVec 10} {rot : BitVec 4} {rd rs : Reg} (s : State)
    (h : slotAt pk k = .instr (.addShort p c rot rd rs)) :
    laneAt pk s k = (Lane.setReg rd (s.readReg rs + shortImm10 c rot)).gate p s :=
  laneAt_of_mayOccupy s h (mayOccupy_of_alu rfl nofun)

/-- Four ADDs, one in each slot. -/
def addsPacket (p : Fin 4 → Pred) (c : Fin 4 → BitVec 10) (rot : Fin 4 → BitVec 4) (rd rs : Fin 4 → Reg) : Packet :=
  { slot0 := .instr (.addShort (p 0) (c 0) (rot 0) (rd 0) (rs 0))
    slot1 := .instr (.addShort (p 1) (c 1) (rot 1) (rd 1) (rs 1))
    slot2 := .instr (.addShort (p 2) (c 2) (rot 2) (rd 2) (rs 2))
    slot3 := .instr (.addShort (p 3) (c 3) (rot 3) (rd 3) (rs 3)) }

theorem slotAt_addsPacket (p : Fin 4 → Pred) (c : Fin 4 → BitVec 10) (rot : Fin 4 → BitVec 4) (rd rs : Fin 4 → Reg)
    (k : Fin 4) : slotAt (addsPacket p c rot rd rs) k = .instr (.addShort (p k) (c k) (rot k) (rd k) (rs k)) := by
  match k with
  | 0 | 1 | 2 | 3 => rfl

/-- Four executing ADDs of different destinations all compute from the registers before the packet. -/
theorem addsPacket_commits {p : Fin 4 → Pred} (c : Fin 4 → BitVec 10) (rot : Fin 4 → BitVec 4) {rd : Fin 4 → Reg}
    (rs : Fin 4 → Reg) {s : State} (hp : ∀ k, s.holds (p k) = true) (hrd : ∀ j k, rd j = rd k → j = k) :
    ∃ t, runPacket (addsPacket p c rot rd rs) s = .next t ∧
      (∀ k, t.readReg (rd k) = s.readReg (rs k) + shortImm10 (c k) (rot k)) ∧
      (∀ r, (∀ k, r ≠ rd k) → t.readReg r = s.readReg r) ∧ s.OnlyRegs t := by
  have hlane (k : Fin 4) : laneAt (addsPacket p c rot rd rs) s k =
      Lane.setReg (rd k) (s.readReg (rs k) + shortImm10 (c k) (rot k)) := by
    rw [laneAt_add s (slotAt_addsPacket p c rot rd rs k), Lane.gate_of_holds _ _ _ (hp k)]
  have hdests (k : Fin 4) : ¬duplicated (addsPacket p c rot rd rs) s k := by
    rintro ⟨j, hj, d, hd, hd'⟩
    rw [hlane, Lane.setReg, List.mem_singleton] at hd hd'
    exact hj (hrd j k (Dest.reg.inj (hd'.symm.trans hd)))
  obtain ⟨t, hrun, hset, hunset, honly⟩ :=
    runPacket_of_regsOnly (fun k => by rw [hlane]; exact Lane.setReg_regsOnly ..) hdests
  refine ⟨t, hrun, fun k => hset k _ _ (by simp [hlane, Lane.setReg]), fun r hr => hunset r fun k v hw => ?_, honly⟩
  rw [hlane, Lane.setReg, List.mem_singleton] at hw
  exact hr k (Write.reg.inj hw).1

/-- Settles O46: the packet commits the writes of its slots, and each clause is about one part of the state; the four
ADDs write registers alone. -/
theorem packetCommits : Obligations.PacketCommits := by
  refine ⟨fun pk s hlane hdests hmem => ?_, fun p c rot rd rs s hp hrd => ?_⟩
  · have hquiet : Quiet pk s := ⟨fun k => (hlane k).1, fun k => (hlane k).2, hdests⟩
    have hpeaceful := peaceful_of_memorySlots hquiet hmem
    obtain ⟨ws, hrun, hws⟩ := hpeaceful.commits
    exact ⟨_, hrun, fun _ _ _ hw => commit_readReg hws hquiet hw, fun _ h => commit_readReg_unset hws h,
      fun _ _ _ hn hw => commit_readPred hws hquiet hn hw, fun _ h => commit_readPred_unset hws h,
      fun _ _ hw => commit_ovf hws hquiet hw, commit_ovf_unset hws,
      fun _ _ hreturn hw => commit_link_set hws hpeaceful hreturn hw, commit_link_unset hws,
      fun _ _ hw => commit_readCpr_set hws hw,
      fun hreturn => ⟨commit_mode_unset hws hreturn, fun _ h => commit_readCpr_unset hws hreturn h⟩,
      fun _ _ _ _ _ hw hram hj => commit_read_stored hws hpeaceful hw hram hj, fun _ h => commit_read_unset hws h,
      fun _ hw => commit_pc_set hws hw,
      fun hw => by
        rw [commit_pc_trapReturn hws hw]
        exact ⟨packetAddr_high _, packetAddr_aligned _⟩,
      commit_pc_unset hws, commit_keepsEnvironment ..⟩
  · obtain ⟨t, hrun, hset, hunset, honly⟩ := addsPacket_commits c rot rs hp hrd
    exact ⟨t, hrun, hset, hunset, honly.preds, honly.ovf, honly.link, honly.memory, honly.tlbs, honly.rest⟩

/-! Two ADDs (40_packet_execution.md R115, 60_exceptions.md R224; log 17). -/

section TwoAdds
variable {pk : Packet} {s : State} {j k : Fin 4} {rd rd' : Reg} {v v' : Word} {q : Pred}

/-- Slots `j` and `k` contribute an executing ADD of `v` to `rd` and one of `v'` to `rd'` predicated on `q`; the others
contribute nothing. -/
structure TwoAdds (pk : Packet) (s : State) (j k : Fin 4) (rd rd' : Reg) (v v' : Word) (q : Pred) : Prop where
  ne : j ≠ k
  first : laneAt pk s j = Lane.setReg rd v
  second : laneAt pk s k = (Lane.setReg rd' v').gate q s
  idle : ∀ i, i ≠ j → i ≠ k → laneAt pk s i = Lane.idle

theorem TwoAdds.lane_cases (h : TwoAdds pk s j k rd rd' v v' q) (i : Fin 4) :
    (i = j ∧ laneAt pk s i = Lane.setReg rd v) ∨ (i = k ∧ laneAt pk s i = (Lane.setReg rd' v').gate q s) ∨
      ((i ≠ j ∧ i ≠ k) ∧ laneAt pk s i = Lane.idle) := by
  by_cases hj : i = j
  · exact .inl ⟨hj, hj ▸ h.first⟩
  · by_cases hk : i = k
    · exact .inr (.inl ⟨hk, hk ▸ h.second⟩)
    · exact .inr (.inr ⟨⟨hj, hk⟩, h.idle i hj hk⟩)

theorem TwoAdds.regsOnly (h : TwoAdds pk s j k rd rd' v v' q) (i : Fin 4) : (laneAt pk s i).RegsOnly := by
  obtain ⟨-, hi⟩ | ⟨-, hi⟩ | ⟨-, hi⟩ := h.lane_cases i <;> rw [hi]
  exacts [Lane.setReg_regsOnly .., (Lane.setReg_regsOnly ..).gate q s, Lane.idle_regsOnly]

/-- The destinations of the second ADD, which count where it executes or DUPDEST_DYNAMIC is false (log 17). -/
theorem mem_gate_setReg_dests {d : Dest} : d ∈ ((Lane.setReg rd' v').gate q s).dests ↔
    d = .reg rd' ∧ (s.holds q = true ∨ s.params.dupDestDynamic = false) := by
  cases hq : s.holds q <;> cases hdyn : s.params.dupDestDynamic <;>
    simp [Lane.gate, hq, Lane.unexecuted, hdyn, Lane.setReg]

theorem mem_gate_setReg_writes {w : Write} : w ∈ ((Lane.setReg rd' v').gate q s).writes ↔
    w = .reg rd' v' ∧ s.holds q = true := by
  cases hq : s.holds q <;> simp [Lane.gate, hq, Lane.unexecuted, Lane.setReg]

/-- The two share a destination where it is the same and the second counts. -/
theorem TwoAdds.duplicated_iff (h : TwoAdds pk s j k rd rd' v v' q) (i : Fin 4) :
    duplicated pk s i ↔ (i = j ∨ i = k) ∧ rd = rd' ∧ (s.holds q = true ∨ s.params.dupDestDynamic = false) := by
  have mem_dests (i : Fin 4) (d : Dest) : d ∈ (laneAt pk s i).dests ↔ (i = j ∧ d = .reg rd) ∨
      (i = k ∧ d = .reg rd' ∧ (s.holds q = true ∨ s.params.dupDestDynamic = false)) := by
    obtain ⟨rfl, hi⟩ | ⟨rfl, hi⟩ | ⟨⟨hj, hk⟩, hi⟩ := h.lane_cases i <;> rw [hi]
    · simp [Lane.setReg, h.ne]
    · simp [mem_gate_setReg_dests, h.ne.symm]
    · simp [Lane.idle, hj, hk]
  constructor
  · rintro ⟨i', hne, d, hd, hd'⟩
    rw [mem_dests] at hd hd'
    obtain ⟨rfl, rfl⟩ | ⟨rfl, rfl, hcounts⟩ := hd <;> obtain ⟨rfl, he⟩ | ⟨rfl, he, hcounts'⟩ := hd'
    · exact absurd rfl hne
    · exact ⟨.inl rfl, Dest.reg.inj he, hcounts'⟩
    · exact ⟨.inr rfl, (Dest.reg.inj he).symm, hcounts⟩
    · exact absurd rfl hne
  · rintro ⟨rfl | rfl, rfl, hcounts⟩
    · exact ⟨k, h.ne.symm, .reg rd, (mem_dests ..).2 (.inl ⟨rfl, rfl⟩), (mem_dests ..).2 (.inr ⟨rfl, rfl, hcounts⟩)⟩
    · exact ⟨j, h.ne, .reg rd, (mem_dests ..).2 (.inr ⟨rfl, rfl, hcounts⟩), (mem_dests ..).2 (.inl ⟨rfl, rfl⟩)⟩

/-- The same destination: both report DuplicateDestination, and the packet traps. -/
theorem TwoAdds.traps (h : TwoAdds pk s j k rd rd' v v' q) (hrd : rd = rd')
    (hcounts : s.holds q = true ∨ s.params.dupDestDynamic = false) :
    ∃ t, runPacket pk s = .next t ∧ t.errorCode j = 4#32 ∧ t.errorCode k = 4#32 ∧
      (∀ i, i ≠ j → i ≠ k → t.errorCode i = 0#32) ∧ s.Trapped t t.ec0 t.ec1 t.ec2 t.ec3 s.ea0 s.ea1 ∧
      s.keepsTlbs t := by
  have hdup (i : Fin 4) (hi : i = j ∨ i = k) : duplicated pk s i := (h.duplicated_iff i).2 ⟨hi, hrd, hcounts⟩
  have report_eq (i : Fin 4) : reportAt pk s i = if i = j ∨ i = k then some .duplicateDestination else none := by
    split
    · next hi => exact reportAt_of_duplicated (hdup i hi) (by simp [(h.regsOnly i).exn])
    · next hi => rw [reportAt_of_not_duplicated fun hd => hi ((h.duplicated_iff i).1 hd).1, (h.regsOnly i).exn]
  have no_ea (i : Fin 4) : (reportAt pk s i).bind Exn.ea = none := by
    rw [report_eq]
    split <;> rfl
  obtain ⟨t, hrun, hcode, htrapped, hdtlb, hitlb⟩ :=
    packet_trapped (fun i => (h.regsOnly i).refusal) ⟨j, .inr (hdup j (.inl rfl))⟩
  have hfills : packetFills pk s = [] := by simp [packetFills, (h.regsOnly _).fills]
  rw [no_ea, no_ea] at htrapped
  rw [hfills] at hdtlb hitlb
  refine ⟨t, hrun, ?_, ?_, fun i hj hk => ?_, htrapped, hdtlb, hitlb⟩
  · rw [hcode, report_eq, if_pos (.inl rfl)]; rfl
  · rw [hcode, report_eq, if_pos (.inr rfl)]; rfl
  · rw [hcode, report_eq, if_neg (not_or.2 ⟨hj, hk⟩)]; rfl

/-- No shared destination: what executes writes its register, and nothing else changes but pc. -/
theorem TwoAdds.commits (h : TwoAdds pk s j k rd rd' v v' q)
    (hfree : ¬(rd = rd' ∧ (s.holds q = true ∨ s.params.dupDestDynamic = false))) :
    ∃ t, runPacket pk s = .next t ∧ t.readReg rd = v ∧ (s.holds q = true → t.readReg rd' = v') ∧
      (∀ r, r ≠ rd → (s.holds q = true → r ≠ rd') → t.readReg r = s.readReg r) ∧ s.OnlyRegs t := by
  obtain ⟨t, hrun, hset, hunset, honly⟩ :=
    runPacket_of_regsOnly h.regsOnly fun i hi => hfree ((h.duplicated_iff i).1 hi).2
  refine ⟨t, hrun, hset j _ _ (by simp [h.first, Lane.setReg]), fun hq => hset k _ _ ?_,
    fun r hr hr' => hunset r fun i w hw => ?_, honly⟩
  · rw [h.second, mem_gate_setReg_writes]
    exact ⟨rfl, hq⟩
  · obtain ⟨-, hi⟩ | ⟨-, hi⟩ | ⟨-, hi⟩ := h.lane_cases i <;> rw [hi] at hw
    · exact hr (Write.reg.inj (List.mem_singleton.1 hw)).1
    · obtain ⟨he, hq⟩ := mem_gate_setReg_writes.1 hw
      exact hr' hq (Write.reg.inj he).1
    · cases hw

end TwoAdds

/-- Settles O47: the two lanes share a destination exactly where it is the same register and the second ADD counts. -/
theorem duplicateDestinationTraps : Obligations.DuplicateDestinationTraps := by
  intro p q c d rot rot' rd rd' rs rs' s j k pk hjk hslot hslot' hidle hp
  have hadds : TwoAdds pk s j k rd rd' (s.readReg rs + shortImm10 c rot) (s.readReg rs' + shortImm10 d rot') q :=
    ⟨hjk, by rw [laneAt_add s hslot, Lane.gate_of_holds _ _ _ hp], laneAt_add s hslot',
      fun i hj hk => by rw [laneAt, hidle i hj hk]; rfl⟩
  refine ⟨hadds.traps, fun hrd hq => ?_, fun hq hfree => ?_⟩
  · obtain ⟨t, hrun, hset, hset', hunset, honly⟩ := hadds.commits fun h => hrd h.1
    exact ⟨t, hrun, hset, hset' hq, fun r hr hr' => hunset r hr fun _ => hr', honly.preds, honly.ovf, honly.link,
      honly.memory, honly.tlbs, honly.rest⟩
  · have hnotShared : ¬(rd = rd' ∧ (s.holds q = true ∨ s.params.dupDestDynamic = false)) := by
      rintro ⟨hrd, hq' | hstatic⟩
      · exact Bool.false_ne_true (hq.symm.trans hq')
      · exact hfree.elim (fun hdyn => Bool.false_ne_true (hstatic.symm.trans hdyn)) fun hne => hne hrd
    obtain ⟨t, hrun, hset, -, hunset, honly⟩ := hadds.commits hnotShared
    exact ⟨t, hrun, hset, fun r hr => hunset r hr fun h => by simp [hq] at h, honly.preds, honly.ovf, honly.link,
      honly.memory, honly.tlbs, honly.rest⟩

end Sys2Proof.Machine
end
